-- ==== Sys2Proof/Word.lean ====
section
/-!
DEFINITION. The word types of the block (spec/00_scope.md R7) and the sparse form in which every memory is held.
-/

namespace Sys2Proof

/-- `DATA_W = 8`: the data line, and one byte of any memory (R7). -/
abbrev Byte := BitVec 8

/-- `ADDR_W = 16`: a bus address (R7). -/
abbrev Addr := BitVec 16

/-- `COLOR_W = 32`: a palette entry or a framebuffer sample (R7); its channels by bit position are those of R23. -/
abbrev Color := BitVec 32

/-- The cycle count of a bus cycle group, 32 bits (R8 `CYC_W`, R57). -/
abbrev Cycles := BitVec 32

/-- One 64-bit stimulus word `S` (R57, R72). -/
abbrev StimulusWord := BitVec 64

/-- A memory as plain data: (index, value) pairs. What an unlisted index reads as is fixed by the reader of the memory
(log entry 21). `List Host.Cell` is `Cells Byte`. -/
abbrev Cells (α : Type) := List (Nat × α)

end Sys2Proof
end

