-- ==== Sys2Proof/Config.lean ====
section
/-!
DEFINITION. The parameters the source leaves open (spec/00_scope.md R8), as the fields of a configuration, the default
values R8 gives them, and the one free value of the model.
-/

namespace Sys2Proof

/-- The position of the colour nibble in a colour/bank byte: `FG_COLOR_LO` is "bit index, 0 or 4" (R8). -/
inductive Nibble where
  | low
  | high
  deriving DecidableEq, Repr

/-- A ROM image: `size` bytes, of which the listed ones are as listed and the others 0x00 (log entry 22). -/
structure Image where
  size : Nat
  cells : Cells Byte
  deriving DecidableEq, Repr

/-- R8: every parameter of the hardware. A configuration is fixed for a run: it stands in `State` as a field that no
step writes (log entry 1). `CYC_W` is the width of `Cycles`. -/
structure Config where
  /-- `PERIOD`: cycles between two display-refresh interrupts (R126). -/
  period : Nat
  /-- `PROG_ROM_LO`, at 0x0000-0x7FFF (R41). -/
  progRomLo : Image
  /-- `PROG_ROM_HI`, at 0xC000-0xDFFF (R41). -/
  progRomHi : Image
  /-- `N_CHARS`, the declared size of `ROM_CHARS`. -/
  nChars : Nat
  romChars : Image
  /-- `N_BGTILES`, the declared size of `ROM_BGTILES`, which no specified operation reads (R132). -/
  nBgTiles : Nat
  romBgTiles : Image
  /-- `N_SPRITES`, the declared size of `ROM_SPRITES`, which no specified operation reads (R143). -/
  nSprites : Nat
  romSprites : Image
  /-- `N_TILEMAP`, the declared size of `ROM_TILEMAP`. -/
  nTilemap : Nat
  romTilemap : Image
  /-- `BG_SELECT_ADDR` (R129). -/
  bgSelectAddr : Addr
  /-- `FG_CODE_BASE` (R133). -/
  fgCodeBase : Addr
  /-- `FG_COLOR_BASE` (R133). -/
  fgColorBase : Addr
  /-- `FG_BANK_BIT`, a bit index of the colour/bank byte (R134). -/
  fgBankBit : Fin 8
  /-- `FG_COLOR_LO`, as the nibble it selects (R134). -/
  fgColorLo : Nibble
  /-- `TM_PAGE_SIZE` (R130). -/
  tmPageSize : Nat
  /-- `TM_ATTR_OFFSET` (R130). -/
  tmAttrOffset : Nat
  /-- `BLANK_TILE` (R130). -/
  blankTile : Byte
  /-- `BG_FILL` (R131). -/
  bgFill : Color
  /-- `UNMAPPED_READ` (R42). -/
  unmappedRead : Byte
  /-- `SND_RAM_SIZE` (R30). -/
  sndRamSize : Nat
  deriving DecidableEq, Repr

/-- An image of `n` bytes, all zero: R8's default contents of every ROM. -/
def zeroImage (n : Nat) : Image := { size := n, cells := [] }

/-- The defaults of R8. PRESUMED where R8 marks the default as general knowledge, DESIGN CHOICE elsewhere (log entry 2):
no statement but those about the reset state rests on them. -/
def Config.default : Config where
  period := 66666
  progRomLo := zeroImage 32768
  progRomHi := zeroImage 8192
  nChars := 12288
  romChars := zeroImage 12288
  nBgTiles := 24576
  romBgTiles := zeroImage 24576
  nSprites := 24576
  romSprites := zeroImage 24576
  nTilemap := 4096
  romTilemap := zeroImage 4096
  bgSelectAddr := 0x9E00
  fgCodeBase := 0x9000
  fgColorBase := 0x9400
  fgBankBit := 4
  fgColorLo := .low
  tmPageSize := 512
  tmAttrOffset := 256
  blankTile := 0xFF
  bgFill := 0xFF000000
  unmappedRead := 0xFF
  sndRamSize := 1024

/-- FREE VALUE: sample `i` of the framebuffer's unspecified content, in draw `k` (R29, D14: "a model gives every sample
an arbitrary value"). It has no body, so nothing can be proved of it (log entry 3). -/
opaque Config.freeSample : (k i : Nat) → Color

end Sys2Proof
end

