-- ==== Sys2Proof/Syntax.lean ====
section
/-!
DEFINITION. The stimuli: one constructor per row of spec/opcode_table.json, in the table's order (R56, R65).
Operands are those of the row's rule: `cyc` the cycle count, `a` the address, `d` the data line at entry, `io` the
space bit where the row does not fix it, `v` the byte a `SETIN` loads. The input bit `INT` is no operand (R70).
-/

namespace Sys2Proof

inductive Instr where
  -- palette region
  | palRd (cyc : Cycles) (a : Addr) (d : Byte)
  | palWrE (cyc : Cycles) (a : Addr) (d : Byte)
  | palWrO (cyc : Cycles) (a : Addr) (d : Byte)
  -- I/O ports 0xB000-0xB005
  | joy1Rd (cyc : Cycles) (d : Byte)
  | imaskWr (cyc : Cycles) (d : Byte)
  | joy2Rd (cyc : Cycles) (d : Byte)
  | b001Wr (cyc : Cycles) (d : Byte)
  | sysRd (cyc : Cycles) (d : Byte)
  | b002Wr (cyc : Cycles) (d : Byte)
  | b003Rd (cyc : Cycles) (d : Byte)
  | b003Wr (cyc : Cycles) (d : Byte)
  | dip1Rd (cyc : Cycles) (d : Byte)
  | flipWr (cyc : Cycles) (d : Byte)
  | dip2Rd (cyc : Cycles) (d : Byte)
  | b005Wr (cyc : Cycles) (d : Byte)
  -- sound latch 0xB800
  | slatchRd (cyc : Cycles) (d : Byte)
  | slatchWr (cyc : Cycles) (d : Byte)
  -- Memory Bank Resolver
  | romlRd (cyc : Cycles) (a : Addr) (d : Byte)
  | romhRd (cyc : Cycles) (a : Addr) (d : Byte)
  | romlWr (cyc : Cycles) (a : Addr) (d : Byte)
  | romhWr (cyc : Cycles) (a : Addr) (d : Byte)
  | ramRd (cyc : Cycles) (a : Addr) (d : Byte)
  | ramWr (cyc : Cycles) (a : Addr) (d : Byte)
  | unmapRd (cyc : Cycles) (a : Addr) (d : Byte)
  | unmapWr (cyc : Cycles) (a : Addr) (d : Byte)
  -- I/O space, idle, reserved
  | ioRd (cyc : Cycles) (a : Addr) (d : Byte)
  | ioWr (cyc : Cycles) (a : Addr) (d : Byte)
  | idle (cyc : Cycles) (io : Bool) (a : Addr) (d : Byte)
  | rsvdRdwr (cyc : Cycles) (io : Bool) (a : Addr) (d : Byte)
  -- sound board
  | sndRd (cyc : Cycles) (io : Bool) (a : Addr) (d : Byte)
  | sndWr (cyc : Cycles) (io : Bool) (a : Addr) (d : Byte)
  | sndIdle (cyc : Cycles) (io : Bool) (a : Addr) (d : Byte)
  -- host
  | render
  | setinJoy1 (v : Byte)
  | setinJoy2 (v : Byte)
  | setinSys (v : Byte)
  | setinDip1 (v : Byte)
  | setinDip2 (v : Byte)
  | reset
  deriving DecidableEq, Repr

end Sys2Proof
end

