-- ==== Sys2Proof/WellFormed.lean ====
section
/-!
DEFINITION. Which operands a row admits: the address ranges of the `Operands` line of each rule of
spec/40_bus_dispatch_main.md. Every other operand may take every value of its type.
-/

namespace Sys2Proof

/-- The palette region `[0x9C00, 0x9D00)` (R77). -/
def Addr.isPalette (a : Addr) : Bool := 0x9C00 ≤ a.toNat && a.toNat < 0x9D00

/-- R102, R103: 0x8000-0x9BFF or 0x9D00-0x9FFF. -/
def Addr.isPlainRam (a : Addr) : Bool :=
  (0x8000 ≤ a.toNat && a.toNat ≤ 0x9BFF) || (0x9D00 ≤ a.toNat && a.toNat ≤ 0x9FFF)

/-- R98, R100: 0x0000-0x7FFF. -/
def Addr.isRomLow (a : Addr) : Bool := a.toNat ≤ 0x7FFF

/-- R99, R101: 0xC000-0xDFFF. -/
def Addr.isRomHigh (a : Addr) : Bool := 0xC000 ≤ a.toNat && a.toNat ≤ 0xDFFF

/-- R104, R105: 0xA000-0xAFFF, 0xB006-0xB7FF, 0xB801-0xBFFF or 0xE000-0xFFFF. -/
def Addr.isUnmapped (a : Addr) : Bool :=
  (0xA000 ≤ a.toNat && a.toNat ≤ 0xAFFF) || (0xB006 ≤ a.toNat && a.toNat ≤ 0xB7FF)
    || (0xB801 ≤ a.toNat && a.toNat ≤ 0xBFFF) || 0xE000 ≤ a.toNat

/-- The operands lie in the ranges of the row's rule. -/
def Instr.wellFormed : Instr → Bool
  | .palRd _ a _ => a.isPalette
  | .palWrE _ a _ => a.isPalette && !a.getLsbD 0
  | .palWrO _ a _ => a.isPalette && a.getLsbD 0
  | .romlRd _ a _ => a.isRomLow
  | .romhRd _ a _ => a.isRomHigh
  | .romlWr _ a _ => a.isRomLow
  | .romhWr _ a _ => a.isRomHigh
  | .ramRd _ a _ => a.isPlainRam
  | .ramWr _ a _ => a.isPlainRam
  | .unmapRd _ a _ => a.isUnmapped
  | .unmapWr _ a _ => a.isUnmapped
  | .joy1Rd _ _ => true
  | .imaskWr _ _ => true
  | .joy2Rd _ _ => true
  | .b001Wr _ _ => true
  | .sysRd _ _ => true
  | .b002Wr _ _ => true
  | .b003Rd _ _ => true
  | .b003Wr _ _ => true
  | .dip1Rd _ _ => true
  | .flipWr _ _ => true
  | .dip2Rd _ _ => true
  | .b005Wr _ _ => true
  | .slatchRd _ _ => true
  | .slatchWr _ _ => true
  | .ioRd _ _ _ => true
  | .ioWr _ _ _ => true
  | .idle _ _ _ _ => true
  | .rsvdRdwr _ _ _ _ => true
  | .sndRd _ _ _ _ => true
  | .sndWr _ _ _ _ => true
  | .sndIdle _ _ _ _ => true
  | .render => true
  | .setinJoy1 _ => true
  | .setinJoy2 _ => true
  | .setinSys _ => true
  | .setinDip1 _ => true
  | .setinDip2 _ => true
  | .reset => true

end Sys2Proof
end

