-- ==== Sys2Proof/Decode.lean ====
section
/-!
DEFINITION. Decoding and encoding of stimulus words (spec/30_encoding.md): the fields (R57), the decoding procedure (R64),
the encoder (R57, R60-R63), and the opcode map (R65) as a table of its own.
-/

namespace Sys2Proof

/-! ## Fields of a stimulus word (R57, R61) -/

def fieldCyc (w : StimulusWord) : Cycles := w.extractLsb' 32 32
def fieldKind (w : StimulusWord) : BitVec 4 := w.extractLsb' 28 4
def fieldIo (w : StimulusWord) : Bool := w.getLsbD 26
def fieldWr (w : StimulusWord) : Bool := w.getLsbD 25
def fieldRd (w : StimulusWord) : Bool := w.getLsbD 24
def fieldD (w : StimulusWord) : Byte := w.extractLsb' 16 8
def fieldA (w : StimulusWord) : Addr := w.extractLsb' 0 16
/-- `SEL` of a `SETIN` (R61). -/
def fieldSel (w : StimulusWord) : BitVec 3 := w.extractLsb' 0 3

/-! ## Decoding (R64) -/

/-- The reserved encodings that are no row of the opcode table (R68, R69). Each is refused (R67). -/
inductive DecodeError where
  /-- `KIND` 5 to 15 (R69). -/
  | reservedKind (kind : BitVec 4)
  /-- `SETIN` with `SEL` 5 to 7 (R69). -/
  | reservedSel (sel : BitVec 3)
  /-- A must-be-zero bit set in `RENDER`, `SETIN` or `RESET` (R69). -/
  | mustBeZero
  /-- `RD = WR = 1` in a `SNDTXN` (R68, R111). -/
  | soundReadWrite
  deriving DecidableEq, Repr

/-- A memory-space read: the map of R40 in priority order, first match wins (R77). -/
def decodeMemRead (cyc : Cycles) (a : Addr) (d : Byte) : Instr :=
  let n := a.toNat
  if 0x9C00 ≤ n ∧ n < 0x9D00 then .palRd cyc a d
  else if n = 0xB000 then .joy1Rd cyc d
  else if n = 0xB001 then .joy2Rd cyc d
  else if n = 0xB002 then .sysRd cyc d
  else if n = 0xB003 then .b003Rd cyc d
  else if n = 0xB004 then .dip1Rd cyc d
  else if n = 0xB005 then .dip2Rd cyc d
  else if n = 0xB800 then .slatchRd cyc d
  else if n ≤ 0x7FFF then .romlRd cyc a d
  else if n ≤ 0x9FFF then .ramRd cyc a d
  else if 0xC000 ≤ n ∧ n ≤ 0xDFFF then .romhRd cyc a d
  else .unmapRd cyc a d

/-- A memory-space write: the map of R40 in priority order, first match wins (R77). -/
def decodeMemWrite (cyc : Cycles) (a : Addr) (d : Byte) : Instr :=
  let n := a.toNat
  if 0x9C00 ≤ n ∧ n < 0x9D00 then (if a.getLsbD 0 then .palWrO cyc a d else .palWrE cyc a d)
  else if n = 0xB000 then .imaskWr cyc d
  else if n = 0xB001 then .b001Wr cyc d
  else if n = 0xB002 then .b002Wr cyc d
  else if n = 0xB003 then .b003Wr cyc d
  else if n = 0xB004 then .flipWr cyc d
  else if n = 0xB005 then .b005Wr cyc d
  else if n = 0xB800 then .slatchWr cyc d
  else if n ≤ 0x7FFF then .romlWr cyc a d
  else if n ≤ 0x9FFF then .ramWr cyc a d
  else if 0xC000 ≤ n ∧ n ≤ 0xDFFF then .romhWr cyc a d
  else .unmapWr cyc a d

/-- R64 (3): a `TXN` by its control lines, then by its address. -/
def decodeTxn (w : StimulusWord) : Instr :=
  let cyc := fieldCyc w
  let a := fieldA w
  let d := fieldD w
  match fieldRd w, fieldWr w, fieldIo w with
  | true, true, io => .rsvdRdwr cyc io a d
  | false, false, io => .idle cyc io a d
  | true, false, true => .ioRd cyc a d
  | false, true, true => .ioWr cyc a d
  | true, false, false => decodeMemRead cyc a d
  | false, true, false => decodeMemWrite cyc a d

/-- R64 (4): a `SNDTXN` by `{WR, RD}` only. -/
def decodeSnd (w : StimulusWord) : Except DecodeError Instr :=
  match fieldRd w, fieldWr w with
  | true, true => .error .soundReadWrite
  | true, false => .ok (.sndRd (fieldCyc w) (fieldIo w) (fieldA w) (fieldD w))
  | false, true => .ok (.sndWr (fieldCyc w) (fieldIo w) (fieldA w) (fieldD w))
  | false, false => .ok (.sndIdle (fieldCyc w) (fieldIo w) (fieldA w) (fieldD w))

/-- R61, R69: `SETIN` needs bits 63:32, 27:24 and 15:3 zero; `SEL` names the latch. -/
def decodeSetin (w : StimulusWord) : Except DecodeError Instr :=
  if w.extractLsb' 32 32 = 0#32 ∧ w.extractLsb' 24 4 = 0#4 ∧ w.extractLsb' 3 13 = 0#13 then
    match (fieldSel w).toNat with
    | 0 => .ok (.setinJoy1 (fieldD w))
    | 1 => .ok (.setinJoy2 (fieldD w))
    | 2 => .ok (.setinSys (fieldD w))
    | 3 => .ok (.setinDip1 (fieldD w))
    | 4 => .ok (.setinDip2 (fieldD w))
    | _ => .error (.reservedSel (fieldSel w))
  else .error .mustBeZero

/-- R60, R62: a command without operands is one word; with `KIND` given, every other bit must be zero (R69). -/
def decodeExact (w expected : StimulusWord) (i : Instr) : Except DecodeError Instr :=
  if w = expected then .ok i else .error .mustBeZero

/-- R64: decode a stimulus word, or reject it by name. -/
def decode (w : StimulusWord) : Except DecodeError Instr :=
  match (fieldKind w).toNat with
  | 0 => .ok (decodeTxn w)
  | 1 => decodeExact w 0x10000000#64 .render
  | 2 => decodeSetin w
  | 3 => decodeExact w 0x30000000#64 .reset
  | 4 => decodeSnd w
  | _ => .error (.reservedKind (fieldKind w))

/-- The stimulus word whose low `nbits` bits are those of `w` and whose other bits are zero (R72: one 64-bit word). -/
def tableWord (nbits w : Nat) : StimulusWord := BitVec.ofNat 64 (w % 2 ^ nbits)

/-- What the decoder reads from an opcode-table word of `nbits` bits. -/
def decodeTableWord (nbits w : Nat) : Option Instr :=
  match decode (tableWord nbits w) with
  | .ok i => some i
  | .error _ => none

/-! ## Encoding (R57, R60-R63) -/

/-- R57: `S = {CYC, KIND, INT, IO, WR, RD, D, A}`, with `INT = 0`. -/
def packWord (cyc : Cycles) (kind : BitVec 4) (io wr rd : Bool) (d : Byte) (a : Addr) : StimulusWord :=
  cyc ++ kind ++ BitVec.ofBool false ++ BitVec.ofBool io ++ BitVec.ofBool wr ++ BitVec.ofBool rd ++ d ++ a

/-- A memory-space read of `a` (R57, R58). -/
def readWord (cyc : Cycles) (a : Addr) (d : Byte) : StimulusWord := packWord cyc 0 false false true d a

/-- A memory-space write of `d` at `a` (R57, R58). -/
def writeWord (cyc : Cycles) (a : Addr) (d : Byte) : StimulusWord := packWord cyc 0 false true false d a

/-- R61: `S = 0x00000000_20VV000s`. -/
def setinWord (sel : BitVec 3) (v : Byte) : StimulusWord :=
  packWord 0 2 false false false v (sel.setWidth 16)

/-- The word of a well-formed stimulus (R57-R63, R65). -/
def encode : Instr → StimulusWord
  | .palRd cyc a d => readWord cyc a d
  | .palWrE cyc a d => writeWord cyc a d
  | .palWrO cyc a d => writeWord cyc a d
  | .joy1Rd cyc d => readWord cyc 0xB000 d
  | .imaskWr cyc d => writeWord cyc 0xB000 d
  | .joy2Rd cyc d => readWord cyc 0xB001 d
  | .b001Wr cyc d => writeWord cyc 0xB001 d
  | .sysRd cyc d => readWord cyc 0xB002 d
  | .b002Wr cyc d => writeWord cyc 0xB002 d
  | .b003Rd cyc d => readWord cyc 0xB003 d
  | .b003Wr cyc d => writeWord cyc 0xB003 d
  | .dip1Rd cyc d => readWord cyc 0xB004 d
  | .flipWr cyc d => writeWord cyc 0xB004 d
  | .dip2Rd cyc d => readWord cyc 0xB005 d
  | .b005Wr cyc d => writeWord cyc 0xB005 d
  | .slatchRd cyc d => readWord cyc 0xB800 d
  | .slatchWr cyc d => writeWord cyc 0xB800 d
  | .romlRd cyc a d => readWord cyc a d
  | .romhRd cyc a d => readWord cyc a d
  | .romlWr cyc a d => writeWord cyc a d
  | .romhWr cyc a d => writeWord cyc a d
  | .ramRd cyc a d => readWord cyc a d
  | .ramWr cyc a d => writeWord cyc a d
  | .unmapRd cyc a d => readWord cyc a d
  | .unmapWr cyc a d => writeWord cyc a d
  | .ioRd cyc a d => packWord cyc 0 true false true d a
  | .ioWr cyc a d => packWord cyc 0 true true false d a
  | .idle cyc io a d => packWord cyc 0 io false false d a
  | .rsvdRdwr cyc io a d => packWord cyc 0 io true true d a
  | .sndRd cyc io a d => packWord cyc 4 io false true d a
  | .sndWr cyc io a d => packWord cyc 4 io true false d a
  | .sndIdle cyc io a d => packWord cyc 4 io false false d a
  | .render => packWord 0 1 false false false 0 0
  | .setinJoy1 v => setinWord 0 v
  | .setinJoy2 v => setinWord 1 v
  | .setinSys v => setinWord 2 v
  | .setinDip1 v => setinWord 3 v
  | .setinDip2 v => setinWord 4 v
  | .reset => packWord 0 3 false false false 0 0

/-! ## The opcode map (R65) -/

/-- One row of the opcode map: a word `S` is in the row when `S &&& mask = pattern`. -/
structure OpcodeRow where
  priority : Nat
  mnemonic : String
  pattern : StimulusWord
  mask : StimulusWord
  deriving DecidableEq, Repr

/-- R65, rows 1 to 17: palette region, ports, sound latch. -/
def opcodeRowsPorts : List OpcodeRow := [
  ⟨1, "PAL.RD", 0x01009C00, 0xF700FF00⟩,
  ⟨2, "PAL.WR.E", 0x02009C00, 0xF700FF01⟩,
  ⟨3, "PAL.WR.O", 0x02009C01, 0xF700FF01⟩,
  ⟨4, "JOY1.RD", 0x0100B000, 0xF700FFFF⟩,
  ⟨5, "IMASK.WR", 0x0200B000, 0xF700FFFF⟩,
  ⟨6, "JOY2.RD", 0x0100B001, 0xF700FFFF⟩,
  ⟨7, "B001.WR", 0x0200B001, 0xF700FFFF⟩,
  ⟨8, "SYS.RD", 0x0100B002, 0xF700FFFF⟩,
  ⟨9, "B002.WR", 0x0200B002, 0xF700FFFF⟩,
  ⟨10, "B003.RD", 0x0100B003, 0xF700FFFF⟩,
  ⟨11, "B003.WR", 0x0200B003, 0xF700FFFF⟩,
  ⟨12, "DIP1.RD", 0x0100B004, 0xF700FFFF⟩,
  ⟨13, "FLIP.WR", 0x0200B004, 0xF700FFFF⟩,
  ⟨14, "DIP2.RD", 0x0100B005, 0xF700FFFF⟩,
  ⟨15, "B005.WR", 0x0200B005, 0xF700FFFF⟩,
  ⟨16, "SLATCH.RD", 0x0100B800, 0xF700FFFF⟩,
  ⟨17, "SLATCH.WR", 0x0200B800, 0xF700FFFF⟩]

/-- R65, rows 18 to 29: resolver, I/O space, idle, reserved. -/
def opcodeRowsResolver : List OpcodeRow := [
  ⟨18, "ROML.RD", 0x01000000, 0xF7008000⟩,
  ⟨19, "ROMH.RD", 0x0100C000, 0xF700E000⟩,
  ⟨20, "ROML.WR", 0x02000000, 0xF7008000⟩,
  ⟨21, "ROMH.WR", 0x0200C000, 0xF700E000⟩,
  ⟨22, "RAM.RD", 0x01008000, 0xF700E000⟩,
  ⟨23, "RAM.WR", 0x02008000, 0xF700E000⟩,
  ⟨24, "UNMAP.RD", 0x01000000, 0xF7000000⟩,
  ⟨25, "UNMAP.WR", 0x02000000, 0xF7000000⟩,
  ⟨26, "IO.RD", 0x05000000, 0xF7000000⟩,
  ⟨27, "IO.WR", 0x06000000, 0xF7000000⟩,
  ⟨28, "IDLE", 0x00000000, 0xF3000000⟩,
  ⟨29, "RSVD.RDWR", 0x03000000, 0xF3000000⟩]

/-- R65, rows 30 to 39, with the full 64-bit masks of opcode_table.json: sound board, host. -/
def opcodeRowsHost : List OpcodeRow := [
  ⟨30, "SND.RD", 0x41000000, 0xF3000000⟩,
  ⟨31, "SND.WR", 0x42000000, 0xF3000000⟩,
  ⟨32, "SND.IDLE", 0x40000000, 0xF3000000⟩,
  ⟨33, "RENDER", 0x10000000, 0xFFFFFFFFFFFFFFFF⟩,
  ⟨34, "SETIN.JOY1", 0x20000000, 0xFFFFFFFFFF00FFFF⟩,
  ⟨35, "SETIN.JOY2", 0x20000001, 0xFFFFFFFFFF00FFFF⟩,
  ⟨36, "SETIN.SYS", 0x20000002, 0xFFFFFFFFFF00FFFF⟩,
  ⟨37, "SETIN.DIP1", 0x20000003, 0xFFFFFFFFFF00FFFF⟩,
  ⟨38, "SETIN.DIP2", 0x20000004, 0xFFFFFFFFFF00FFFF⟩,
  ⟨39, "RESET", 0x30000000, 0xFFFFFFFFFFFFFFFF⟩]

/-- R65: the opcode map, in priority order. -/
def opcodeMap : List OpcodeRow := opcodeRowsPorts ++ opcodeRowsResolver ++ opcodeRowsHost

/-- R64: "a decoder takes the first row whose `(S & mask) = match`". -/
def firstRow (w : StimulusWord) : Option OpcodeRow :=
  opcodeMap.find? fun r => w &&& r.mask == r.pattern

/-- The row of the opcode map that a stimulus stands for, by its priority number. -/
def Instr.row : Instr → Nat
  | .palRd _ _ _ => 1
  | .palWrE _ _ _ => 2
  | .palWrO _ _ _ => 3
  | .joy1Rd _ _ => 4
  | .imaskWr _ _ => 5
  | .joy2Rd _ _ => 6
  | .b001Wr _ _ => 7
  | .sysRd _ _ => 8
  | .b002Wr _ _ => 9
  | .b003Rd _ _ => 10
  | .b003Wr _ _ => 11
  | .dip1Rd _ _ => 12
  | .flipWr _ _ => 13
  | .dip2Rd _ _ => 14
  | .b005Wr _ _ => 15
  | .slatchRd _ _ => 16
  | .slatchWr _ _ => 17
  | .romlRd _ _ _ => 18
  | .romhRd _ _ _ => 19
  | .romlWr _ _ _ => 20
  | .romhWr _ _ _ => 21
  | .ramRd _ _ _ => 22
  | .ramWr _ _ _ => 23
  | .unmapRd _ _ _ => 24
  | .unmapWr _ _ _ => 25
  | .ioRd _ _ _ => 26
  | .ioWr _ _ _ => 27
  | .idle _ _ _ _ => 28
  | .rsvdRdwr _ _ _ _ => 29
  | .sndRd _ _ _ _ => 30
  | .sndWr _ _ _ _ => 31
  | .sndIdle _ _ _ _ => 32
  | .render => 33
  | .setinJoy1 _ => 34
  | .setinJoy2 _ => 35
  | .setinSys _ => 36
  | .setinDip1 _ => 37
  | .setinDip2 _ => 38
  | .reset => 39

end Sys2Proof
end

