-- ==== Sys2Proof/Machine/State.lean ====
section
/-!
DEFINITION. The state of the block (spec/10_state.md), its reset value (R33), the ways a step can stop, and the named
updates of the state.
-/

namespace Sys2Proof.Machine

/-- Faults: none. The block raises no exception of any kind (R157), so the type has no constructor and no one raises one. -/
inductive Fault where
  deriving DecidableEq, Repr

/-- Why a step is refused: "the model gives the stimulus no meaning and marks the run refused" (R11, R67, R175). -/
inductive Refusal where
  /-- Raised by `exec` for an instruction without a meaning; no arm does so. Safe. -/
  | notModelled (mnemonic : String)
  /-- Raised by `step` when the stimulus word is a reserved encoding that is no row of the table (R68, R69). Safe. -/
  | reservedEncoding (e : DecodeError)
  /-- Raised by `RSVD.RDWR`: `RD = WR = 1` in a `TXN` (R68, R80). Safe. -/
  | readWriteTogether
  /-- Raised by `step` when the configuration is not well formed (R9, R175). Safe. -/
  | illFormedConfig
  deriving DecidableEq, Repr

/-- The board whose dispatcher answered: `KIND` 0 or 4 of the response (R59). -/
inductive Board where
  | main
  | sound
  deriving DecidableEq, Repr

/-- The response to a `TXN` or `SNDTXN` (R59): `{dout, int}` with the pins copied from the stimulus. -/
structure Response where
  board : Board
  int : Bool
  io : Bool
  wr : Bool
  rd : Bool
  dout : Byte
  a : Addr
  deriving DecidableEq, Repr

/-- Everything the spec gives the machine (R13-R30), with the configuration (log entry 1) and three fields of the model's
own: `fbDraw`, `response`, `pending`. -/
structure State where
  /-- The parameters of R8. No step writes this field. -/
  cfg : Config
  /-- R14. -/
  joy1 : Byte
  /-- R15. -/
  joy2 : Byte
  /-- R16. -/
  sys : Byte
  /-- R17. -/
  dip1 : Byte
  /-- R18. -/
  dip2 : Byte
  /-- R21, the interrupt mask byte. -/
  imask : Byte
  /-- R22, the cycle accumulator. -/
  acc : Nat
  /-- R24, keys 0..127; an unlisted entry is 0xFF000000. -/
  pal : Cells Color
  /-- R26, keys 0..8191; an unlisted byte is 0x00. -/
  ram : List Host.Cell
  /-- R30, keys 0..SND_RAM_SIZE-1; an unlisted byte is 0x00. -/
  sndRam : List Host.Cell
  /-- R28, keys 0..65535; an unlisted sample is `BG_FILL`. Its content means nothing while `fbValid` is false. -/
  fb : Cells Color
  /-- R29, `FB_VALID`. -/
  fbValid : Bool
  /-- The model's own: which free content the framebuffer has while `fbValid` is false (R29, log entry 3). -/
  fbDraw : Nat
  /-- The model's own: the response to the last stimulus, none where it returns nothing (R56, R59, log entry 5). -/
  response : Option Response
  /-- The model's own: the stimulus words that have arrived and wait, oldest first (R50, log entry 4). -/
  pending : List StimulusWord
  deriving DecidableEq, Repr

/-- R33: the state after `RESET` and at power-on, with the default configuration of R8 (log entry 2). -/
def State.reset : State where
  cfg := Config.default
  joy1 := 0x00
  joy2 := 0x00
  sys := 0x00
  dip1 := 0x00
  dip2 := 0x00
  imask := 0x00
  acc := 0
  pal := []
  ram := []
  sndRam := []
  fb := []
  fbValid := false
  fbDraw := 0
  response := none
  pending := []

/-! ## Named updates: each writes the fields it names and no other. -/

def State.setJoy1 (s : State) (v : Byte) : State := { s with joy1 := v }
def State.setJoy2 (s : State) (v : Byte) : State := { s with joy2 := v }
def State.setSys (s : State) (v : Byte) : State := { s with sys := v }
def State.setDip1 (s : State) (v : Byte) : State := { s with dip1 := v }
def State.setDip2 (s : State) (v : Byte) : State := { s with dip2 := v }
def State.setImask (s : State) (v : Byte) : State := { s with imask := v }
def State.setAcc (s : State) (n : Nat) : State := { s with acc := n }
def State.setPal (s : State) (m : Cells Color) : State := { s with pal := m }
def State.setRam (s : State) (m : List Host.Cell) : State := { s with ram := m }
def State.setFb (s : State) (m : Cells Color) : State := { s with fb := m }
def State.setFbValid (s : State) (b : Bool) : State := { s with fbValid := b }
def State.setResponse (s : State) (r : Option Response) : State := { s with response := r }
def State.setPending (s : State) (ws : List StimulusWord) : State := { s with pending := ws }

end Sys2Proof.Machine
end

