-- ==== Sys2Proof/Machine/Operands.lean ====
section
/-!
DEFINITION. The derived operands of a stimulus and of the pipeline (spec/30_encoding.md R66), nibble replication (R10),
and the packed form of a response (R59).
-/

namespace Sys2Proof.Machine

/-- R44: `RamIdx(a) = (a - 0x8000) mod 8192`, on naturals. -/
def ramIdx (a : Nat) : Nat := (a - 0x8000) % 8192

/-- R66: the palette index of a palette-region address, `(A - 0x9C00) div 2`. -/
def palIdx (a : Addr) : Nat := (a.toNat - 0x9C00) / 2

/-- R10: `rep4(n) = {n, n}`. -/
def rep4 (n : BitVec 4) : Byte := n ++ n

/-- The low nibble of a byte. -/
def loNibble (b : Byte) : BitVec 4 := b.extractLsb' 0 4

/-- The high nibble of a byte. -/
def hiNibble (b : Byte) : BitVec 4 := b.extractLsb' 4 4

/-! ## Background pass operands -/

/-- R129: `s[2:0]`. -/
def selPage (sel : Byte) : BitVec 3 := sel.extractLsb' 0 3

/-- R129: `s[4]`, 1 visible. -/
def selVisible (sel : Byte) : Bool := sel.getLsbD 4

/-- R130: `attr[3:0]`. -/
def attrColorGroup (attr : Byte) : BitVec 4 := attr.extractLsb' 0 4

/-- R130: `attr[7]`. -/
def attrVFlip (attr : Byte) : Bool := attr.getLsbD 7

/-! ## Foreground pass operands -/

/-- R134: `clr[FG_BANK_BIT]`. -/
def clrBank (cfg : Config) (clr : Byte) : Bool := clr.getLsbD cfg.fgBankBit.val

/-- R134: `clr[FG_COLOR_LO+3 : FG_COLOR_LO]`. -/
def clrNibble (cfg : Config) (clr : Byte) : BitVec 4 :=
  match cfg.fgColorLo with
  | .low => loNibble clr
  | .high => hiNibble clr

/-- R134: the 9-bit tile index `{bank, code}`. -/
def tileIndex (bank : Bool) (code : Byte) : BitVec 9 := BitVec.ofBool bank ++ code

/-- R134: the base ROM address, `tile * 8`. -/
def tileBase (tile : BitVec 9) : Nat := tile.toNat * 8

/-- R136: `{p2[b], p1[b], p0[b]}` with `b = 7 - col`. -/
def pen (p0 p1 p2 : Byte) (col : Nat) : BitVec 3 :=
  BitVec.ofBool (p2.getLsbD (7 - col)) ++ BitVec.ofBool (p1.getLsbD (7 - col)) ++ BitVec.ofBool (p0.getLsbD (7 - col))

/-- R137: `(cn*8 + pen) mod 128`. -/
def penEntry (cn : BitVec 4) (p : BitVec 3) : Nat := (cn.toNat * 8 + p.toNat) % 128

/-- R28: the framebuffer index of sample `(x, y)`. -/
def sampleIdx (x y : Nat) : Nat := y * 256 + x

/-! ## The packed response (R59) -/

/-- `KIND` of a response: that of the stimulus, 0 for `TXN` and 4 for `SNDTXN` (R57, R63). -/
def boardKind : Board → BitVec 4
  | .main => 0
  | .sound => 4

/-- R59: the pin word `W' = {KIND, INT, IO, WR, RD, D, A}`. -/
def packResponse (r : Response) : BitVec 32 :=
  boardKind r.board ++ BitVec.ofBool r.int ++ BitVec.ofBool r.io ++ BitVec.ofBool r.wr ++ BitVec.ofBool r.rd ++ r.dout ++ r.a

end Sys2Proof.Machine
end

