-- ==== Sys2Proof/Machine/Flags.lean ====
section
/-!
DEFINITION. The block has no flags (spec/10_state.md R32). These are the Boolean results R32 names, outputs or local
values and not state.
-/

namespace Sys2Proof.Machine

/-- R119: `t >= PERIOD`, the accumulator's sum reaches or exceeds the period. -/
def wraps (period t : Nat) : Bool := period ≤ t

/-- R119, R161: the request: a wrap while the mask is nonzero. -/
def interruptRequest (wrapped : Bool) (imask : Byte) : Bool := wrapped && imask != 0x00

/-- R136, R137: pen 0 is transparent. -/
def transparent (p : BitVec 3) : Bool := p == 0

end Sys2Proof.Machine
end

