-- ==== Sys2Proof/Machine/Ops.lean ====
section
/-!
DEFINITION. The operations every meaning shares: sparse memories, the Memory Bank Resolver (spec/20_memory.md R41-R45),
the timing step (R119), the common skeleton of a `TXN` (R76), the stub skeleton of a `SNDTXN` (R108), the stimulus queue
and the check of the configuration (R9). The block takes no exception (R157, R165); its one interrupt request is `advance`.
-/

namespace Sys2Proof.Machine

/-! ## Sparse memories -/

/-- The value at index `a`: the listed one, else `d`. -/
def readCell {α : Type} (d : α) : Cells α → Nat → α
  | [], _ => d
  | (k, v) :: m, a => if k = a then v else readCell d m a

/-- Put `(a, v)` before the first index above `a`. -/
def insertCell {α : Type} (a : Nat) (v : α) : Cells α → Cells α
  | [] => [(a, v)]
  | (k, w) :: m => if a < k then (a, v) :: (k, w) :: m else (k, w) :: insertCell a v m

/-- Forget what is listed at index `a`. -/
def eraseCell {α : Type} (a : Nat) (m : Cells α) : Cells α := m.filter fun c => !(c.1 == a)

/-- Write `v` at index `a` of a memory whose unlisted value is `d`: writing `d` leaves `a` unlisted. -/
def writeCell {α : Type} [DecidableEq α] (d : α) (m : Cells α) (a : Nat) (v : α) : Cells α :=
  if v = d then eraseCell a m else insertCell a v (eraseCell a m)

/-- The canonical form of a memory of `n` cells with unlisted value `d`: indices strictly rising and below `n`, and no
cell equal to `d`. -/
abbrev Memory.wf {α : Type} (d : α) (n : Nat) (m : Cells α) : Prop :=
  m.Pairwise (fun x y => x.1 < y.1) ∧ ∀ c ∈ m, c.1 < n ∧ c.2 ≠ d

/-! ## What an unlisted cell reads as (log entry 21) -/

/-- R33: RAM and sound RAM are zero at reset. -/
def ramDefault : Byte := 0x00

/-- R33: a palette entry is opaque black at reset. -/
def palDefault : Color := 0xFF000000

/-- R8: the contents of a ROM byte that the configuration does not list. -/
def romDefault : Byte := 0x00

/-! ## The arrays of the block (R11) -/

/-- `RAM[i]`. -/
def ramAt (s : State) (i : Nat) : Byte := readCell ramDefault s.ram i

/-- `RAM[i] <- v`. -/
def ramPut (s : State) (i : Nat) (v : Byte) : State := s.setRam (writeCell ramDefault s.ram i v)

/-- `PAL[i]`. -/
def palAt (s : State) (i : Nat) : Color := readCell palDefault s.pal i

/-- `PAL[i] <- c`. -/
def palPut (s : State) (i : Nat) (c : Color) : State := s.setPal (writeCell palDefault s.pal i c)

/-- `SND_RAM[i]`; no specified operation uses it (R30). -/
def sndRamAt (s : State) (i : Nat) : Byte := readCell ramDefault s.sndRam i

/-- `FB[i]` as the presentation layer sees it: unspecified while `FB_VALID = 0` (R29, log entry 3). -/
def sample (s : State) (i : Nat) : Color :=
  if s.fbValid then readCell s.cfg.bgFill s.fb i else Config.freeSample s.fbDraw i

/-- R45: `RomRead(bank, i) = bank[i mod N]`, `n` the declared size. -/
def romRead (bank : Image) (n i : Nat) : Byte := readCell romDefault bank.cells (i % n)

/-! ## The Memory Bank Resolver (R41) -/

/-- R42: `MemRead(a, 1)`. -/
def memRead (s : State) (a : Addr) : Byte :=
  let n := a.toNat
  if n ≤ 0x7FFF then readCell romDefault s.cfg.progRomLo.cells n
  else if 0x8000 ≤ n ∧ n ≤ 0x9FFF then ramAt s (ramIdx n)
  else if 0xC000 ≤ n ∧ n ≤ 0xDFFF then readCell romDefault s.cfg.progRomHi.cells ((n - 0xC000) % 8192)
  else s.cfg.unmappedRead

/-- R43: `MemWrite(a, 1, v)`. -/
def memWrite (s : State) (a : Addr) (v : Byte) : State :=
  if 0x8000 ≤ a.toNat ∧ a.toNat ≤ 0x9FFF then ramPut s (ramIdx a.toNat) v else s

/-! ## The timing step and the common skeleton -/

/-- R119, R120: `ADVANCE(c)`: the request it returns, and the state with the accumulator advanced. -/
def advance (c : Nat) (s : State) : Bool × State :=
  let t := s.acc + c
  (interruptRequest (wraps s.cfg.period t) s.imask, s.setAcc (t % s.cfg.period))

/-- R76: a `TXN`: the timing step, then the dispatch step, which answers `dout` and the new state, then the response. -/
def busTxn (cyc : Cycles) (io wr rd : Bool) (a : Addr) (dispatch : State → Byte × State) (s : State) : State :=
  let timed := advance cyc.toNat s
  let done := dispatch timed.2
  done.2.setResponse (some { board := .main, int := timed.1, io := io, wr := wr, rd := rd, dout := done.1, a := a })

/-- A read whose handler supplies a byte and changes no state (R49, R76). -/
def busRead (cyc : Cycles) (io : Bool) (a : Addr) (supply : State → Byte) : State → State :=
  busTxn cyc io false true a fun s => (supply s, s)

/-- A write: the data line keeps the byte written (R59), the handler makes its effect (R76). -/
def busWrite (cyc : Cycles) (io : Bool) (a : Addr) (d : Byte) (effect : State → State) : State → State :=
  busTxn cyc io true false a fun s => (d, effect s)

/-- R78: a bus cycle group without a request. -/
def busIdle (cyc : Cycles) (io : Bool) (a : Addr) (d : Byte) : State → State :=
  busTxn cyc io false false a fun s => (d, s)

/-- R108-R111: a `SNDTXN` of the stub: no timing step, no effect, `dout = d`, `int = 0`. -/
def sndTxn (io wr rd : Bool) (a : Addr) (d : Byte) (s : State) : State :=
  s.setResponse (some { board := .sound, int := false, io := io, wr := wr, rd := rd, dout := d, a := a })

/-- R56: a host stimulus returns nothing. -/
def noResponse (s : State) : State := s.setResponse none

/-! ## The configuration (R9) -/

/-- A bank image has its declared size, which is at least 1 (R9). -/
def bankOk (n : Nat) (image : Image) : Bool := image.size == n && 1 ≤ n

/-- The address lies in 0x8000-0x9FFF (R9). -/
def inRam (a : Addr) : Bool := 0x8000 ≤ a.toNat && a.toNat ≤ 0x9FFF

/-- R8's constraint on `FG_BANK_BIT`: not in 0..3 if the colour nibble is the low one (log entry 23). -/
def bankBitOk (cfg : Config) : Bool :=
  match cfg.fgColorLo with
  | .low => 4 ≤ cfg.fgBankBit.val
  | .high => true

/-- R9, with the constraints of R8: the configuration is well formed. -/
def configWellFormed (cfg : Config) : Bool :=
  [decide (1 ≤ cfg.period),
    bankOk 32768 cfg.progRomLo, bankOk 8192 cfg.progRomHi,
    bankOk cfg.nChars cfg.romChars, bankOk cfg.nBgTiles cfg.romBgTiles,
    bankOk cfg.nSprites cfg.romSprites, bankOk cfg.nTilemap cfg.romTilemap,
    inRam cfg.bgSelectAddr, inRam cfg.fgCodeBase, inRam cfg.fgColorBase,
    bankBitOk cfg, decide (1 ≤ cfg.tmPageSize), cfg.bgFill.extractLsb' 24 8 == 0xFF#8, decide (1 ≤ cfg.sndRamSize)].all
      fun ok => ok

/-! ## The stimuli that have arrived (R50) -/

/-- Stimuli arrive behind those that wait (log entry 4). -/
def arrive (s : State) (ws : List StimulusWord) : State := s.setPending (s.pending ++ ws)

/-- Take the oldest stimulus that waits. -/
def fetch (s : State) : Option (StimulusWord × State) :=
  match s.pending with
  | [] => none
  | w :: rest => some (w, s.setPending rest)

/-- The state in which `w` is the next stimulus to be handled. -/
def placeNext (s : State) (w : StimulusWord) : State := s.setPending (w :: s.pending)

end Sys2Proof.Machine
end

