-- ==== Sys2Proof/Machine/HostOps.lean ====
section
/-!
DEFINITION. Host operations (spec/45_host_ops.md): `SETIN` (R148-R153) and `RESET` (R147).
-/

namespace Sys2Proof.Machine

/-- `SETIN.JOY1` (R149). -/
def execSetinJoy1 (v : Byte) (s : State) : Host.Outcome State Fault Refusal := .next (noResponse (s.setJoy1 v))

/-- `SETIN.JOY2` (R150). -/
def execSetinJoy2 (v : Byte) (s : State) : Host.Outcome State Fault Refusal := .next (noResponse (s.setJoy2 v))

/-- `SETIN.SYS` (R151). -/
def execSetinSys (v : Byte) (s : State) : Host.Outcome State Fault Refusal := .next (noResponse (s.setSys v))

/-- `SETIN.DIP1` (R152). -/
def execSetinDip1 (v : Byte) (s : State) : Host.Outcome State Fault Refusal := .next (noResponse (s.setDip1 v))

/-- `SETIN.DIP2` (R153). -/
def execSetinDip2 (v : Byte) (s : State) : Host.Outcome State Fault Refusal := .next (noResponse (s.setDip2 v))

/-- R147: the reset state, with the parameters and ROM images untouched (R180), the stimuli that wait still waiting, and
the framebuffer's content unspecified anew (R29, log entry 3). -/
def resetFrom (s : State) : State :=
  { State.reset with cfg := s.cfg, pending := s.pending, fbDraw := s.fbDraw + 1 }

/-- `RESET` (R147). -/
def execReset (s : State) : Host.Outcome State Fault Refusal := .next (resetFrom s)

end Sys2Proof.Machine
end

