-- ==== Sys2Proof/Machine/Ports.lean ====
section
/-!
DEFINITION. The I/O ports 0xB000-0xB005 and the sound latch 0xB800 (spec/40_bus_dispatch_main.md R84-R97): each port is
"independently asymmetric".
-/

namespace Sys2Proof.Machine

/-- A read of a port that no handler drives: the data line keeps its incoming value (R79). -/
def undrivenRead (cyc : Cycles) (io : Bool) (a : Addr) (d : Byte) : State → State :=
  busRead cyc io a fun _ => d

/-- An accepted write without effect (R87). -/
def noopWrite (cyc : Cycles) (io : Bool) (a : Addr) (d : Byte) : State → State :=
  busWrite cyc io a d fun s => s

/-- `JOY1.RD` (R84). -/
def execJoy1Rd (cyc : Cycles) (_d : Byte) (s : State) : Host.Outcome State Fault Refusal :=
  .next (busRead cyc false 0xB000 (fun t => t.joy1) s)

/-- `IMASK.WR` (R85): the timing step has already run with the old mask. -/
def execImaskWr (cyc : Cycles) (d : Byte) (s : State) : Host.Outcome State Fault Refusal :=
  .next (busWrite cyc false 0xB000 d (fun t => t.setImask d) s)

/-- `JOY2.RD` (R86). -/
def execJoy2Rd (cyc : Cycles) (_d : Byte) (s : State) : Host.Outcome State Fault Refusal :=
  .next (busRead cyc false 0xB001 (fun t => t.joy2) s)

/-- `B001.WR` (R87): accepted no-op. -/
def execB001Wr (cyc : Cycles) (d : Byte) (s : State) : Host.Outcome State Fault Refusal :=
  .next (noopWrite cyc false 0xB001 d s)

/-- `SYS.RD` (R88). -/
def execSysRd (cyc : Cycles) (_d : Byte) (s : State) : Host.Outcome State Fault Refusal :=
  .next (busRead cyc false 0xB002 (fun t => t.sys) s)

/-- `B002.WR` (R89): no-op. -/
def execB002Wr (cyc : Cycles) (d : Byte) (s : State) : Host.Outcome State Fault Refusal :=
  .next (noopWrite cyc false 0xB002 d s)

/-- `B003.RD` (R90): reserved port, undriven read. -/
def execB003Rd (cyc : Cycles) (d : Byte) (s : State) : Host.Outcome State Fault Refusal :=
  .next (undrivenRead cyc false 0xB003 d s)

/-- `B003.WR` (R91): reserved port, no-op. -/
def execB003Wr (cyc : Cycles) (d : Byte) (s : State) : Host.Outcome State Fault Refusal :=
  .next (noopWrite cyc false 0xB003 d s)

/-- `DIP1.RD` (R92). -/
def execDip1Rd (cyc : Cycles) (_d : Byte) (s : State) : Host.Outcome State Fault Refusal :=
  .next (busRead cyc false 0xB004 (fun t => t.dip1) s)

/-- `FLIP.WR` (R93): unresolved screen flip, stores nothing. -/
def execFlipWr (cyc : Cycles) (d : Byte) (s : State) : Host.Outcome State Fault Refusal :=
  .next (noopWrite cyc false 0xB004 d s)

/-- `DIP2.RD` (R94). -/
def execDip2Rd (cyc : Cycles) (_d : Byte) (s : State) : Host.Outcome State Fault Refusal :=
  .next (busRead cyc false 0xB005 (fun t => t.dip2) s)

/-- `B005.WR` (R95): no-op. -/
def execB005Wr (cyc : Cycles) (d : Byte) (s : State) : Host.Outcome State Fault Refusal :=
  .next (noopWrite cyc false 0xB005 d s)

/-- `SLATCH.RD` (R96): unresolved sound latch, undriven read. -/
def execSlatchRd (cyc : Cycles) (d : Byte) (s : State) : Host.Outcome State Fault Refusal :=
  .next (undrivenRead cyc false 0xB800 d s)

/-- `SLATCH.WR` (R97): unresolved sound latch, the byte is not stored. -/
def execSlatchWr (cyc : Cycles) (d : Byte) (s : State) : Host.Outcome State Fault Refusal :=
  .next (noopWrite cyc false 0xB800 d s)

end Sys2Proof.Machine
end

