-- ==== Sys2Proof/Machine/IoSpace.lean ====
section
/-!
DEFINITION. I/O-space requests, idle bus cycle groups and the reserved transaction (spec/40_bus_dispatch_main.md R78, R80,
R106, R107).
-/

namespace Sys2Proof.Machine

/-- `IO.RD` (R106): nothing is mapped in the I/O space; undriven read. -/
def execIoRd (cyc : Cycles) (a : Addr) (d : Byte) (s : State) : Host.Outcome State Fault Refusal :=
  .next (undrivenRead cyc true a d s)

/-- `IO.WR` (R107): no-op. -/
def execIoWr (cyc : Cycles) (a : Addr) (d : Byte) (s : State) : Host.Outcome State Fault Refusal :=
  .next (noopWrite cyc true a d s)

/-- `IDLE` (R78): the timing step only. -/
def execIdle (cyc : Cycles) (io : Bool) (a : Addr) (d : Byte) (s : State) : Host.Outcome State Fault Refusal :=
  .next (busIdle cyc io a d s)

/-- `RSVD.RDWR` (R80): reserved, refused; "no behaviour is specified, not even the timing step". -/
def execRsvdRdwr (_cyc : Cycles) (_io : Bool) (_a : Addr) (_d : Byte) (_s : State) : Host.Outcome State Fault Refusal :=
  .refused .readWriteTogether

end Sys2Proof.Machine
end

