-- ==== Sys2Proof/Machine/Palette.lean ====
section
/-!
DEFINITION. The palette encoder (spec/42_palette_encoder.md) and the palette region of the main board
(spec/40_bus_dispatch_main.md R81-R83).
-/

namespace Sys2Proof.Machine

/-- R113: `PALENC(cur, odd, b)`. -/
def palEnc (cur : Color) (odd : Bool) (b : Byte) : Color :=
  if odd then 0xFF#8 ++ rep4 (loNibble b) ++ cur.extractLsb' 0 16
  else 0xFF#8 ++ cur.extractLsb' 16 8 ++ rep4 (hiNibble b) ++ rep4 (loNibble b)

/-- R82, R83: store the byte, then re-encode the channels of the address's parity. -/
def palStore (odd : Bool) (a : Addr) (d : Byte) (s : State) : State :=
  let stored := ramPut s (ramIdx a.toNat) d
  palPut stored (palIdx a) (palEnc (palAt stored (palIdx a)) odd d)

/-- `PAL.RD` (R81). -/
def execPalRd (cyc : Cycles) (a : Addr) (_d : Byte) (s : State) : Host.Outcome State Fault Refusal :=
  .next (busRead cyc false a (fun t => ramAt t (ramIdx a.toNat)) s)

/-- `PAL.WR.E` (R82). -/
def execPalWrE (cyc : Cycles) (a : Addr) (d : Byte) (s : State) : Host.Outcome State Fault Refusal :=
  .next (busWrite cyc false a d (palStore false a d) s)

/-- `PAL.WR.O` (R83). -/
def execPalWrO (cyc : Cycles) (a : Addr) (d : Byte) (s : State) : Host.Outcome State Fault Refusal :=
  .next (busWrite cyc false a d (palStore true a d) s)

end Sys2Proof.Machine
end

