-- ==== Sys2Proof/Machine/Resolver.lean ====
section
/-!
DEFINITION. Memory-space transactions delegated to the Memory Bank Resolver (spec/40_bus_dispatch_main.md R98-R105).
-/

namespace Sys2Proof.Machine

/-- `dout <- MemRead(a, 1)` after the timing step. -/
def resolverRead (cyc : Cycles) (a : Addr) : State → State :=
  busRead cyc false a fun t => memRead t a

/-- `MemWrite(a, 1, d)` after the timing step. -/
def resolverWrite (cyc : Cycles) (a : Addr) (d : Byte) : State → State :=
  busWrite cyc false a d fun t => memWrite t a d

/-- `ROML.RD` (R98). -/
def execRomlRd (cyc : Cycles) (a : Addr) (_d : Byte) (s : State) : Host.Outcome State Fault Refusal :=
  .next (resolverRead cyc a s)

/-- `ROMH.RD` (R99). -/
def execRomhRd (cyc : Cycles) (a : Addr) (_d : Byte) (s : State) : Host.Outcome State Fault Refusal :=
  .next (resolverRead cyc a s)

/-- `ROML.WR` (R100): ROM is immutable. -/
def execRomlWr (cyc : Cycles) (a : Addr) (d : Byte) (s : State) : Host.Outcome State Fault Refusal :=
  .next (resolverWrite cyc a d s)

/-- `ROMH.WR` (R101): ROM is immutable. -/
def execRomhWr (cyc : Cycles) (a : Addr) (d : Byte) (s : State) : Host.Outcome State Fault Refusal :=
  .next (resolverWrite cyc a d s)

/-- `RAM.RD` (R102). -/
def execRamRd (cyc : Cycles) (a : Addr) (_d : Byte) (s : State) : Host.Outcome State Fault Refusal :=
  .next (resolverRead cyc a s)

/-- `RAM.WR` (R103). -/
def execRamWr (cyc : Cycles) (a : Addr) (d : Byte) (s : State) : Host.Outcome State Fault Refusal :=
  .next (resolverWrite cyc a d s)

/-- `UNMAP.RD` (R104): the resolver's byte, not the incoming data line. -/
def execUnmapRd (cyc : Cycles) (a : Addr) (_d : Byte) (s : State) : Host.Outcome State Fault Refusal :=
  .next (resolverRead cyc a s)

/-- `UNMAP.WR` (R105): a silent no-op. -/
def execUnmapWr (cyc : Cycles) (a : Addr) (d : Byte) (s : State) : Host.Outcome State Fault Refusal :=
  .next (resolverWrite cyc a d s)

end Sys2Proof.Machine
end

