-- ==== Sys2Proof/Machine/SoundBoard.lean ====
section
/-!
DEFINITION. The sound-board dispatcher, a stub contract (spec/41_sound_board.md R108-R112).
-/

namespace Sys2Proof.Machine

/-- `SND.RD` (R109): undriven read. -/
def execSndRd (_cyc : Cycles) (io : Bool) (a : Addr) (d : Byte) (s : State) : Host.Outcome State Fault Refusal :=
  .next (sndTxn io false true a d s)

/-- `SND.WR` (R110): no effect. -/
def execSndWr (_cyc : Cycles) (io : Bool) (a : Addr) (d : Byte) (s : State) : Host.Outcome State Fault Refusal :=
  .next (sndTxn io true false a d s)

/-- `SND.IDLE` (R111): no effect. -/
def execSndIdle (_cyc : Cycles) (io : Bool) (a : Addr) (d : Byte) (s : State) : Host.Outcome State Fault Refusal :=
  .next (sndTxn io false false a d s)

end Sys2Proof.Machine
end

