-- ==== Sys2Proof/Machine/Video.lean ====
section
/-!
DEFINITION. The video reconstruction pipeline (spec/44_video_pipeline.md): `RENDER` and its two passes.
-/

namespace Sys2Proof.Machine

/-! ## Background pass -/

/-- What R130 looks up for one background cell. -/
structure BgCell where
  code : Byte
  colgrp : BitVec 4
  vflip : Bool
  deriving DecidableEq, Repr

/-- R130: the lookup of a cell `0..255`. -/
def bgLookup (cfg : Config) (page : BitVec 3) (vis : Bool) (cell : Nat) : BgCell :=
  let off := page.toNat * cfg.tmPageSize + cell
  let attr := romRead cfg.romTilemap cfg.nTilemap (off + cfg.tmAttrOffset)
  { code := if vis then romRead cfg.romTilemap cfg.nTilemap off else cfg.blankTile
    colgrp := attrColorGroup attr
    vflip := attrVFlip attr }

/-- Index `i` of the framebuffer lies in block `(bx, by)` of 16 x 16 samples (R131). -/
def inBlock (bx by' i : Nat) : Bool := i / 256 / 16 == by' && i % 256 / 16 == bx

/-- R131: every sample of block `(bx, by)` becomes `BG_FILL`, which is what an unlisted sample reads as; R132: the cell
looked up changes no sample. -/
def fillBlock (bx by' : Nat) (_cell : BgCell) (fb : Cells Color) : Cells Color :=
  fb.filter fun c => !inBlock bx by' c.1

/-- R128: one cell of the background pass. -/
def bgCellPass (s : State) (sel : Byte) (by' bx : Nat) (fb : Cells Color) : Cells Color :=
  fillBlock bx by' (bgLookup s.cfg (selPage sel) (selVisible sel) (by' * 16 + bx)) fb

/-- R128: `BGPASS`: the background-select byte, then 16 x 16 blocks. -/
def bgPass (s : State) (fb : Cells Color) : Cells Color :=
  let sel := ramAt s (ramIdx s.cfg.bgSelectAddr.toNat)
  (List.range 16).foldl (fun f by' => (List.range 16).foldl (fun f bx => bgCellPass s sel by' bx f) f) fb

/-! ## Foreground pass -/

/-- R137: write or skip the sample at `(x, y)`. -/
def fgPut (s : State) (cn : BitVec 4) (p : BitVec 3) (x y : Nat) (fb : Cells Color) : Cells Color :=
  if transparent p then fb else writeCell s.cfg.bgFill fb (sampleIdx x y) (palAt s (penEntry cn p))

/-- R135: plane `k` of a row, at offset `k * 4096` of the character ROM. -/
def planeByte (cfg : Config) (tile : BitVec 9) (row k : Nat) : Byte :=
  romRead cfg.romChars cfg.nChars (tileBase tile + row + k * 4096)

/-- R135-R137: the eight samples of one row of a cell. -/
def fgRow (s : State) (tile : BitVec 9) (cn : BitVec 4) (cx cy row : Nat) (fb : Cells Color) : Cells Color :=
  let p0 := planeByte s.cfg tile row 0
  let p1 := planeByte s.cfg tile row 1
  let p2 := planeByte s.cfg tile row 2
  (List.range 8).foldl (fun f col => fgPut s cn (pen p0 p1 p2 col) (cx * 8 + col) (cy * 8 + row) f) fb

/-- The character-code byte of cell `off` (R133). -/
def fgCode (s : State) (off : Nat) : Byte := ramAt s (ramIdx (s.cfg.fgCodeBase.toNat + off))

/-- The colour/bank byte of cell `off` (R133). -/
def fgColor (s : State) (off : Nat) : Byte := ramAt s (ramIdx (s.cfg.fgColorBase.toNat + off))

/-- R133, R134: one 8 x 8 cell. -/
def fgCell (s : State) (cy cx : Nat) (fb : Cells Color) : Cells Color :=
  let off := cy * 32 + cx
  let clr := fgColor s off
  let tile := tileIndex (clrBank s.cfg clr) (fgCode s off)
  (List.range 8).foldl (fun f row => fgRow s tile (clrNibble s.cfg clr) cx cy row f) fb

/-- R133: `FGPASS`: 32 x 32 cells. -/
def fgPass (s : State) (fb : Cells Color) : Cells Color :=
  (List.range 32).foldl (fun f cy => (List.range 32).foldl (fun f cx => fgCell s cy cx f) f) fb

/-- R127: both passes, background strictly before foreground, then `FB_VALID <- 1`. -/
def renderFrame (s : State) : State := (s.setFb (fgPass s (bgPass s s.fb))).setFbValid true

/-- `RENDER` (R127). -/
def execRender (s : State) : Host.Outcome State Fault Refusal := .next (noResponse (renderFrame s))

end Sys2Proof.Machine
end

