-- ==== Sys2Proof/Machine/Dispatch.lean ====
section
/-!
DEFINITION. One arm per stimulus: each calls its meaning.
-/

namespace Sys2Proof.Machine

def exec (i : Instr) (s : State) : Host.Outcome State Fault Refusal :=
  match i with
  | .palRd cyc a d => Sys2Proof.Machine.execPalRd cyc a d s
  | .palWrE cyc a d => Sys2Proof.Machine.execPalWrE cyc a d s
  | .palWrO cyc a d => Sys2Proof.Machine.execPalWrO cyc a d s
  | .joy1Rd cyc d => Sys2Proof.Machine.execJoy1Rd cyc d s
  | .imaskWr cyc d => Sys2Proof.Machine.execImaskWr cyc d s
  | .joy2Rd cyc d => Sys2Proof.Machine.execJoy2Rd cyc d s
  | .b001Wr cyc d => Sys2Proof.Machine.execB001Wr cyc d s
  | .sysRd cyc d => Sys2Proof.Machine.execSysRd cyc d s
  | .b002Wr cyc d => Sys2Proof.Machine.execB002Wr cyc d s
  | .b003Rd cyc d => Sys2Proof.Machine.execB003Rd cyc d s
  | .b003Wr cyc d => Sys2Proof.Machine.execB003Wr cyc d s
  | .dip1Rd cyc d => Sys2Proof.Machine.execDip1Rd cyc d s
  | .flipWr cyc d => Sys2Proof.Machine.execFlipWr cyc d s
  | .dip2Rd cyc d => Sys2Proof.Machine.execDip2Rd cyc d s
  | .b005Wr cyc d => Sys2Proof.Machine.execB005Wr cyc d s
  | .slatchRd cyc d => Sys2Proof.Machine.execSlatchRd cyc d s
  | .slatchWr cyc d => Sys2Proof.Machine.execSlatchWr cyc d s
  | .romlRd cyc a d => Sys2Proof.Machine.execRomlRd cyc a d s
  | .romhRd cyc a d => Sys2Proof.Machine.execRomhRd cyc a d s
  | .romlWr cyc a d => Sys2Proof.Machine.execRomlWr cyc a d s
  | .romhWr cyc a d => Sys2Proof.Machine.execRomhWr cyc a d s
  | .ramRd cyc a d => Sys2Proof.Machine.execRamRd cyc a d s
  | .ramWr cyc a d => Sys2Proof.Machine.execRamWr cyc a d s
  | .unmapRd cyc a d => Sys2Proof.Machine.execUnmapRd cyc a d s
  | .unmapWr cyc a d => Sys2Proof.Machine.execUnmapWr cyc a d s
  | .ioRd cyc a d => Sys2Proof.Machine.execIoRd cyc a d s
  | .ioWr cyc a d => Sys2Proof.Machine.execIoWr cyc a d s
  | .idle cyc io a d => Sys2Proof.Machine.execIdle cyc io a d s
  | .rsvdRdwr cyc io a d => Sys2Proof.Machine.execRsvdRdwr cyc io a d s
  | .sndRd cyc io a d => Sys2Proof.Machine.execSndRd cyc io a d s
  | .sndWr cyc io a d => Sys2Proof.Machine.execSndWr cyc io a d s
  | .sndIdle cyc io a d => Sys2Proof.Machine.execSndIdle cyc io a d s
  | .render => Sys2Proof.Machine.execRender s
  | .setinJoy1 v => Sys2Proof.Machine.execSetinJoy1 v s
  | .setinJoy2 v => Sys2Proof.Machine.execSetinJoy2 v s
  | .setinSys v => Sys2Proof.Machine.execSetinSys v s
  | .setinDip1 v => Sys2Proof.Machine.execSetinDip1 v s
  | .setinDip2 v => Sys2Proof.Machine.execSetinDip2 v s
  | .reset => Sys2Proof.Machine.execReset s

end Sys2Proof.Machine
end

