-- ==== Sys2Proof/Machine/Step.lean ====
section
/-!
DEFINITION. One step of the machine: handle the oldest stimulus that waits (spec/20_memory.md R50), to completion.
-/

namespace Sys2Proof.Machine

/-- Decode a stimulus word and handle it; a reserved encoding is refused (R67). -/
def handle (w : StimulusWord) (s : State) : Host.Outcome State Fault Refusal :=
  match decode w with
  | .ok i => exec i s
  | .error e => .refused (.reservedEncoding e)

/-- R9, R50: refuse an ill-formed configuration; else handle the oldest stimulus, taken off the queue; where none waits,
nothing changes (log entry 4). -/
def step (s : State) : Host.Outcome State Fault Refusal :=
  if configWellFormed s.cfg then
    match fetch s with
    | none => .next s
    | some (w, rest) => handle w rest
  else .refused .illFormedConfig

/-- The state in which the stimulus word of `nbits` bits `w` is the next one that `step` handles. -/
def State.withFetchWord (s : State) (nbits w : Nat) : State := placeNext s (tableWord nbits w)

end Sys2Proof.Machine
end

