-- ==== Sys2Proof/Machine/Trace.lean ====
section
/-!
DEFINITION. The trace syntax (spec/30_encoding.md R73) and the pseudo-stimuli (R74), as expansions into stimulus words.
They are notation of the spec (D20) and no part of a step.
-/

namespace Sys2Proof.Machine

/-- R73: one line of a trace; `cyc` defaults to 4 and `d` to 0x00. -/
inductive Line where
  | rd (a : Addr) (cyc : Cycles := 4) (d : Byte := 0)
  | wr (a : Addr) (v : Byte) (cyc : Cycles := 4)
  | ioRd (a : Addr) (cyc : Cycles := 4) (d : Byte := 0)
  | ioWr (a : Addr) (v : Byte) (cyc : Cycles := 4)
  | idle (cyc : Cycles := 4) (d : Byte := 0)
  | sndRd (a : Addr) (cyc : Cycles := 4) (d : Byte := 0)
  | sndWr (a : Addr) (v : Byte) (cyc : Cycles := 4)
  | sndIdle (cyc : Cycles := 4) (d : Byte := 0)
  | render
  | setin (sel : BitVec 3) (v : Byte)
  | reset
  deriving DecidableEq, Repr

/-- The stimulus word of a line (R57-R63, R73). -/
def lineWord : Line → StimulusWord
  | .rd a cyc d => readWord cyc a d
  | .wr a v cyc => writeWord cyc a v
  | .ioRd a cyc d => packWord cyc 0 true false true d a
  | .ioWr a v cyc => packWord cyc 0 true true false v a
  | .idle cyc d => packWord cyc 0 false false false d 0
  | .sndRd a cyc d => packWord cyc 4 false false true d a
  | .sndWr a v cyc => packWord cyc 4 false true false v a
  | .sndIdle cyc d => packWord cyc 4 false false false d 0
  | .render => packWord 0 1 false false false 0 0
  | .setin sel v => setinWord sel v
  | .reset => packWord 0 3 false false false 0 0

/-- R74: the pseudo-stimuli. -/
inductive Pseudo where
  /-- `PALSET i, bgr12`. -/
  | palset (i : Fin 128) (bgr : BitVec 12)
  | ei
  | di
  | wait (n : Cycles)
  | frame (ts : List Line)
  deriving DecidableEq, Repr

/-- R74: the lines a pseudo-stimulus stands for. -/
def expand : Pseudo → List Line
  | .palset i bgr =>
    [.wr (BitVec.ofNat 16 (0x9C00 + 2 * i.val)) (bgr.extractLsb' 0 8),
     .wr (BitVec.ofNat 16 (0x9C00 + 2 * i.val + 1)) ((bgr.extractLsb' 8 4).setWidth 8)]
  | .ei => [.wr 0xB000 0x01]
  | .di => [.wr 0xB000 0x00]
  | .wait n => [.idle n]
  | .frame ts => ts ++ [.render]

/-- Handle stimulus words one after another, each to completion (R50, R156); a refused one refuses the run. -/
def runWords : List StimulusWord → State → Host.Outcome State Fault Refusal
  | [], s => .next s
  | w :: ws, s =>
    match handle w s with
    | .next t => runWords ws t
    | .fault r => .fault r
    | .refused r => .refused r

/-- The words of a pseudo-stimulus. -/
def pseudoWords (p : Pseudo) : List StimulusWord := (expand p).map lineWord

end Sys2Proof.Machine
end

