-- ==== Sys2Proof/Safety.lean ====
section
/-!
DEFINITION. What the statements speak of: the invariant of the machine, the reserved words, the closed form of a frame,
and the response a rule gives.
-/

namespace Sys2Proof.Machine

/-! ## The invariant -/

/-- R25: the colour that the pair of bytes `(e, o)` at the even and the odd address stands for. -/
def pairColor (e o : Byte) : Color := 0xFF#8 ++ rep4 (loNibble o) ++ rep4 (hiNibble e) ++ rep4 (loNibble e)

/-- Bits 31:24 of a colour (R23). -/
def alpha (c : Color) : Byte := c.extractLsb' 24 8

/-- What holds at reset and after every step. -/
structure Inv (s : State) : Prop where
  /-- R22: the accumulator is in `[0, PERIOD)`. -/
  accInRange : s.acc < s.cfg.period
  /-- The memories are in canonical form (log entry 21). -/
  ramCanonical : Memory.wf ramDefault 8192 s.ram
  sndRamCanonical : Memory.wf ramDefault s.cfg.sndRamSize s.sndRam
  palCanonical : Memory.wf palDefault 128 s.pal
  fbCanonical : Memory.wf s.cfg.bgFill 65536 s.fb
  /-- R25: every palette entry is the colour of its pair of RAM bytes. -/
  palMatchesRam : ∀ i < 128, palAt s i = pairColor (ramAt s (0x1C00 + 2 * i)) (ramAt s (0x1C00 + 2 * i + 1))
  /-- R28, R142: every sample a `RENDER` leaves is opaque. -/
  fbOpaque : s.fbValid = true → ∀ i < 65536, alpha (sample s i) = 0xFF

/-! ## Reserved words (R68, R69), by their bits -/

/-- A must-be-zero bit outside `KIND` is set (R69, `RENDER` and `RESET`). -/
abbrev hasOperandBits (w : StimulusWord) : Prop := w &&& 0xFFFFFFFF0FFFFFFF#64 ≠ 0

/-- A must-be-zero bit of a `SETIN` is set: bits 63:32, 27:24, 15:3 (R69). -/
abbrev hasSetinBits (w : StimulusWord) : Prop := w &&& 0xFFFFFFFF0F00FFF8#64 ≠ 0

/-- R68, R69: the word is a reserved encoding. -/
abbrev Reserved (w : StimulusWord) : Prop :=
  5 ≤ (fieldKind w).toNat
    ∨ ((fieldKind w = 0 ∨ fieldKind w = 4) ∧ fieldRd w = true ∧ fieldWr w = true)
    ∨ ((fieldKind w = 1 ∨ fieldKind w = 3) ∧ hasOperandBits w)
    ∨ (fieldKind w = 2 ∧ (hasSetinBits w ∨ 5 ≤ (fieldSel w).toNat))

/-! ## The timing step, as R119 and R120 give it -/

/-- `ACC'` after a `TXN` of `cyc` cycles. -/
def accAfter (s : State) (cyc : Cycles) : Nat := (s.acc + cyc.toNat) % s.cfg.period

/-- The request of a `TXN` of `cyc` cycles. -/
def intOf (s : State) (cyc : Cycles) : Bool := decide (s.cfg.period ≤ s.acc + cyc.toNat ∧ s.imask ≠ 0)

/-- The response of a main-board read that answers `dout`. -/
def readReply (s : State) (cyc : Cycles) (io : Bool) (a : Addr) (dout : Byte) : Option Response :=
  some { board := .main, int := intOf s cyc, io := io, wr := false, rd := true, dout := dout, a := a }

/-- The response of a main-board write of `d`. -/
def writeReply (s : State) (cyc : Cycles) (io : Bool) (a : Addr) (d : Byte) : Option Response :=
  some { board := .main, int := intOf s cyc, io := io, wr := true, rd := false, dout := d, a := a }

/-- The response of the sound board: `dout = d`, `int = 0` (R109-R111). -/
def sndReply (io wr rd : Bool) (a : Addr) (d : Byte) : Option Response :=
  some { board := .sound, int := false, io := io, wr := wr, rd := rd, dout := d, a := a }

/-! ## A run of timing steps (R125) -/

/-- Counts over a run of timing steps: the wraps, the requests, and the state at the end. -/
structure Tally where
  wrapCount : Nat
  requestCount : Nat
  final : State

/-- R125: one timing step per cycle count, in order. -/
def tally : List Nat → State → Tally
  | [], s => { wrapCount := 0, requestCount := 0, final := s }
  | c :: cs, s =>
    let rest := tally cs (advance c s).2
    { wrapCount := (if s.cfg.period ≤ s.acc + c then 1 else 0) + rest.wrapCount
      requestCount := (if (advance c s).1 then 1 else 0) + rest.requestCount
      final := rest.final }

/-! ## The address map (R40), in priority order -/

/-- The byte a memory-space read of `a` answers, `d` being the incoming data line. -/
def mapRead (s : State) (a : Addr) (d : Byte) : Byte :=
  let n := a.toNat
  if 0x9C00 ≤ n ∧ n ≤ 0x9CFF then ramAt s (n - 0x8000)
  else if n = 0xB000 then s.joy1
  else if n = 0xB001 then s.joy2
  else if n = 0xB002 then s.sys
  else if n = 0xB003 then d
  else if n = 0xB004 then s.dip1
  else if n = 0xB005 then s.dip2
  else if n = 0xB800 then d
  else if n ≤ 0x7FFF then readCell romDefault s.cfg.progRomLo.cells n
  else if 0xC000 ≤ n ∧ n ≤ 0xDFFF then readCell romDefault s.cfg.progRomHi.cells (n - 0xC000)
  else if n ≤ 0x9FFF then ramAt s (n - 0x8000)
  else s.cfg.unmappedRead

/-! ## The closed form of a frame (R138), on naturals -/

/-- The plane byte `k` of a row of the tile with index `tile` (R134, R135). -/
def planeOf (s : State) (tile row k : Nat) : Byte :=
  romRead s.cfg.romChars s.cfg.nChars (tile * 8 + row + k * 4096)

/-- Bit `b` of a byte as a number. -/
def bitOf (v : Byte) (b : Nat) : Nat := if v.getLsbD b then 1 else 0

/-- The character-code byte of cell `(cx, cy)` (R133). -/
def codeByte (s : State) (cx cy : Nat) : Byte := ramAt s ((s.cfg.fgCodeBase.toNat + (cy * 32 + cx) - 0x8000) % 8192)

/-- The colour/bank byte of cell `(cx, cy)` (R133). -/
def colorByte (s : State) (cx cy : Nat) : Byte := ramAt s ((s.cfg.fgColorBase.toNat + (cy * 32 + cx) - 0x8000) % 8192)

/-- The tile index of cell `(cx, cy)`: code | (bank-bit << 8) (R134). -/
def tileOf (s : State) (cx cy : Nat) : Nat :=
  bitOf (colorByte s cx cy) s.cfg.fgBankBit.val * 256 + (codeByte s cx cy).toNat

/-- The colour nibble of cell `(cx, cy)` (R134). -/
def nibbleOf (s : State) (cx cy : Nat) : Nat :=
  match s.cfg.fgColorLo with
  | .low => (colorByte s cx cy).toNat % 16
  | .high => (colorByte s cx cy).toNat / 16

/-- The pen of sample `(x, y)` (R136). -/
def penOf (s : State) (x y : Nat) : Nat :=
  let tile := tileOf s (x / 8) (y / 8)
  let b := 7 - x % 8
  bitOf (planeOf s tile (y % 8) 2) b * 4 + bitOf (planeOf s tile (y % 8) 1) b * 2 + bitOf (planeOf s tile (y % 8) 0) b

/-- R138: sample `(x, y)` after `RENDER`. -/
def frameAt (s : State) (x y : Nat) : Color :=
  if penOf s x y = 0 then s.cfg.bgFill else palAt s (nibbleOf s (x / 8) (y / 8) * 8 + penOf s x y)

/-! ## Families of stimuli -/

/-- The stimuli of kind `TXN`, by their cycle count: rows 1 to 28. -/
def txnCycles : Instr → Option Cycles
  | .palRd cyc _ _ => some cyc
  | .palWrE cyc _ _ => some cyc
  | .palWrO cyc _ _ => some cyc
  | .joy1Rd cyc _ => some cyc
  | .imaskWr cyc _ => some cyc
  | .joy2Rd cyc _ => some cyc
  | .b001Wr cyc _ => some cyc
  | .sysRd cyc _ => some cyc
  | .b002Wr cyc _ => some cyc
  | .b003Rd cyc _ => some cyc
  | .b003Wr cyc _ => some cyc
  | .dip1Rd cyc _ => some cyc
  | .flipWr cyc _ => some cyc
  | .dip2Rd cyc _ => some cyc
  | .b005Wr cyc _ => some cyc
  | .slatchRd cyc _ => some cyc
  | .slatchWr cyc _ => some cyc
  | .romlRd cyc _ _ => some cyc
  | .romhRd cyc _ _ => some cyc
  | .romlWr cyc _ _ => some cyc
  | .romhWr cyc _ _ => some cyc
  | .ramRd cyc _ _ => some cyc
  | .ramWr cyc _ _ => some cyc
  | .unmapRd cyc _ _ => some cyc
  | .unmapWr cyc _ _ => some cyc
  | .ioRd cyc _ _ => some cyc
  | .ioWr cyc _ _ => some cyc
  | .idle cyc _ _ _ => some cyc
  | .rsvdRdwr _ _ _ _ => none
  | .sndRd _ _ _ _ => none
  | .sndWr _ _ _ _ => none
  | .sndIdle _ _ _ _ => none
  | .render => none
  | .setinJoy1 _ => none
  | .setinJoy2 _ => none
  | .setinSys _ => none
  | .setinDip1 _ => none
  | .setinDip2 _ => none
  | .reset => none

/-- The stimuli of kind `SNDTXN`. -/
def isSnd : Instr → Bool
  | .sndRd _ _ _ _ => true
  | .sndWr _ _ _ _ => true
  | .sndIdle _ _ _ _ => true
  | _ => false

/-- The main-board reads, memory space and I/O space. -/
def isMainRead : Instr → Bool
  | .palRd _ _ _ => true
  | .joy1Rd _ _ => true
  | .joy2Rd _ _ => true
  | .sysRd _ _ => true
  | .b003Rd _ _ => true
  | .dip1Rd _ _ => true
  | .dip2Rd _ _ => true
  | .slatchRd _ _ => true
  | .romlRd _ _ _ => true
  | .romhRd _ _ _ => true
  | .ramRd _ _ _ => true
  | .unmapRd _ _ _ => true
  | .ioRd _ _ _ => true
  | _ => false

/-- The reads a handler drives (R59): every main-board read but the undriven ones of R79. -/
def isDrivenRead : Instr → Bool
  | .b003Rd _ _ => false
  | .slatchRd _ _ => false
  | .ioRd _ _ _ => false
  | i => isMainRead i

end Sys2Proof.Machine
end

