-- ==== Sys2Proof/Certificates/Slice0/Obligations.lean ====
section
/-!
DEFINITION. The statements for the provers. Each docstring names the rule of the spec it formalises.
-/

open Sys2Proof Sys2Proof.Machine

/-! ## Encoding -/

/-- The spec's four encoding examples (R75, which the spec derives from its layout D1; log entry 6). -/
def Obligations.WorkedWordsDecode : Prop :=
  lineWord (.wr 0x9C00 0x53) = 0x0000000402539C00#64
    ∧ decode 0x0000000402539C00#64 = .ok (.palWrE 4 0x9C00 0x53)
    ∧ lineWord (.rd 0xB000 3 0x00) = 0x000000030100B000#64
    ∧ decode 0x000000030100B000#64 = .ok (.joy1Rd 3 0x00)
    ∧ lineWord (.idle 66666) = 0x0001046A00000000#64
    ∧ decode 0x0001046A00000000#64 = .ok (.idle 66666 false 0 0)
    ∧ lineWord (.setin 0 0x21) = 0x0000000020210000#64
    ∧ decode 0x0000000020210000#64 = .ok (.setinJoy1 0x21)

/-- R64: decoding the word of a well-formed stimulus gives it back, for every stimulus. The layout of the word is the
spec's decision D1 (log entry 6). -/
def Obligations.DecodeOfEncodeIsIdentity : Prop :=
  ∀ i : Instr, i.wellFormed = true → decode (encode i) = .ok i

/-- R64: what decodes is well formed, and encodes to the word decoded with bit 27 cleared. The layout and that bit 27 is
ignored are the spec's decisions D1 and D19 (log entries 6 and 9). -/
def Obligations.EncodeOfDecodeClearsTheIgnoredBit : Prop :=
  ∀ (w : StimulusWord) (i : Instr), decode w = .ok i →
    i.wellFormed = true ∧ encode i = w &&& 0xFFFFFFFFF7FFFFFF#64

/-- R64, R65: the decoding procedure and the opcode map, first match by priority, agree on every word. -/
def Obligations.DecoderAgreesWithOpcodeMap : Prop :=
  ∀ w : StimulusWord, (firstRow w).map (fun r => r.priority) =
    match decode w with
    | .ok i => some i.row
    | .error _ => none

/-- The input bit `INT` of a `TXN` or `SNDTXN` changes neither the decoding nor the handling: the spec's decision D19 (R70,
log entry 9). -/
def Obligations.InterruptInputBitIsIgnored : Prop :=
  ∀ (w : StimulusWord) (s : State), fieldKind w = 0#4 ∨ fieldKind w = 4#4 →
    decode (w ||| 0x08000000#64) = decode (w &&& 0xFFFFFFFFF7FFFFFF#64)
      ∧ handle (w ||| 0x08000000#64) s = handle (w &&& 0xFFFFFFFFF7FFFFFF#64) s

/-! ## The step -/

/-- R9, R50: a step handles the oldest stimulus that waits: it takes it off the queue and runs what it decodes to.
The queue, that a step with nothing waiting changes nothing, and the check at each step are the model's choice (log entries 4
and 7). -/
def Obligations.StepRunsTheDecodedStimulus : Prop :=
  ∀ s : State, configWellFormed s.cfg = true →
    (s.pending = [] → step s = .next s) ∧
    ∀ (w : StimulusWord) (ws : List StimulusWord) (i : Instr), s.pending = w :: ws → decode w = .ok i →
      step s = exec i { s with pending := ws }

/-- A step never faults, and it is refused exactly for a reserved encoding or an ill-formed configuration (R175, which the
spec derives; R67-R69 are its decision D18; log entries 7 and 8). -/
def Obligations.RefusedExactlyWhenReserved : Prop :=
  ∀ s : State, (∀ r, step s ≠ .fault r) ∧
    ((∃ r, step s = .refused r) ↔
      (configWellFormed s.cfg = false ∨ ∃ w ws, s.pending = w :: ws ∧ Reserved w))

/-- R22, R24, R26: the invariant holds at reset. It rests on the default `PERIOD` (log entry 2) and on the canonical form of
a memory (log entry 21). -/
def Obligations.InvariantHoldsAtReset : Prop := Inv State.reset

/-- R22, R24, R26: every step keeps the invariant. The canonical form of a memory is the model's (log entry 21); that the
palette matches RAM and that samples are opaque are inferences of the spec (R25, R142). -/
def Obligations.EveryStepKeepsTheInvariant : Prop :=
  ∀ s t : State, Inv s → step s = .next t → Inv t

/-- R27, R180: no stimulus writes the configuration. That it stands in the state, and the queue with it, is the model's choice
(log entries 1 and 4). -/
def Obligations.ConfigurationIsNeverWritten : Prop :=
  ∀ (i : Instr) (s t : State), exec i s = .next t → t.cfg = s.cfg ∧ t.pending = s.pending

/-! ## Reset -/

/-- R178: the state at power-on (the spec's values; not those of the configuration, log entry 2). -/
def Obligations.StateAtPowerOn : Prop :=
  State.reset.joy1 = 0x00 ∧ State.reset.joy2 = 0x00 ∧ State.reset.sys = 0x00 ∧ State.reset.dip1 = 0x00
    ∧ State.reset.dip2 = 0x00 ∧ State.reset.imask = 0x00 ∧ State.reset.acc = 0
    ∧ (∀ i < 128, palAt State.reset i = 0xFF000000) ∧ (∀ i < 8192, ramAt State.reset i = 0x00)
    ∧ (∀ i < State.reset.cfg.sndRamSize, sndRamAt State.reset i = 0x00) ∧ State.reset.fbValid = false

/-- R147: `RESET` in every state. That it may come at any time is the spec's decision D15 (log entry 18); that the queue stays
and that it returns nothing are the model's (log entries 4 and 5). -/
def Obligations.ResetInitialisesAllState : Prop :=
  ∀ s : State, ∃ t, exec .reset s = .next t
    ∧ t.joy1 = 0x00 ∧ t.joy2 = 0x00 ∧ t.sys = 0x00 ∧ t.dip1 = 0x00 ∧ t.dip2 = 0x00 ∧ t.imask = 0x00 ∧ t.acc = 0
    ∧ (∀ i < 128, palAt t i = 0xFF000000) ∧ (∀ i < 8192, ramAt t i = 0x00)
    ∧ (∀ i < t.cfg.sndRamSize, sndRamAt t i = 0x00) ∧ t.fbValid = false
    ∧ t.cfg = s.cfg ∧ t.pending = s.pending ∧ t.response = none

/-! ## The timing step -/

/-- R76, R119: every `TXN` completes, advances the accumulator, and carries the request in its response. The reduction for
`cyc` of a period and more is the spec's decision D23 (log entry 14). -/
def Obligations.EveryTransactionAdvancesTheAccumulator : Prop :=
  ∀ (i : Instr) (cyc : Cycles) (s : State), txnCycles i = some cyc →
    ∃ t r, exec i s = .next t ∧ t.acc = (s.acc + cyc.toNat) % s.cfg.period
      ∧ t.response = some r ∧ r.board = .main
      ∧ r.int = decide (s.cfg.period ≤ s.acc + cyc.toNat ∧ s.imask ≠ 0x00)

/-- R119: `ADVANCE` in every state. The reduction for `c` of a period and more is the spec's decision D23 (log entry 14). -/
def Obligations.AdvanceResult : Prop :=
  ∀ (c : Nat) (s : State),
    (advance c s).1 = decide (s.cfg.period ≤ s.acc + c ∧ s.imask ≠ 0x00)
      ∧ (advance c s).2 = { s with acc := (s.acc + c) % s.cfg.period }

/-- R22: reduction modulo the period (the spec's decision D23, R120, log entry 14) keeps the accumulator in range for every
`c`; below one period it is the single subtraction. -/
def Obligations.WrapKeepsTheRangeAndIsOneSubtraction : Prop :=
  ∀ (c : Nat) (s : State), s.acc < s.cfg.period →
    (advance c s).2.acc = (s.acc + c) % s.cfg.period ∧ (advance c s).2.acc < s.cfg.period
      ∧ (c < s.cfg.period →
          (advance c s).2.acc = if s.cfg.period ≤ s.acc + c then s.acc + c - s.cfg.period else s.acc + c)

/-- R123: with the mask zero no cycle count requests; the accumulator advances all the same (modulo the period, D23, log
entry 14); and the request of a later step, under any mask, depends only on that step's own wrap. -/
def Obligations.ZeroMaskSuppressesTheRequest : Prop :=
  ∀ (c : Nat) (s : State), s.imask = 0x00 →
    (advance c s).1 = false ∧ (advance c s).2.acc = (s.acc + c) % s.cfg.period
      ∧ ∀ (m : Byte) (c' : Nat), (advance c' ((advance c s).2.setImask m)).1 =
          decide (s.cfg.period ≤ (s.acc + c) % s.cfg.period + c' ∧ m ≠ 0x00)

/-- R119: exactly one period's worth of cycles (R124, which the spec derives). -/
def Obligations.ExactlyOnePeriodRequestsOnce : Prop :=
  ∀ s : State, s.acc < s.cfg.period →
    (advance s.cfg.period s).2 = s ∧ ((advance s.cfg.period s).1 = true ↔ s.imask ≠ 0x00)

/-- R119: over cycle counts below the period, the wraps and the end value depend only on the sum; under a nonzero mask the
requests are the wraps (R125, which the spec derives). -/
def Obligations.LongRunRate : Prop :=
  ∀ (cs : List Nat) (s : State), s.acc < s.cfg.period → (∀ c ∈ cs, c < s.cfg.period) →
    (tally cs s).wrapCount = (s.acc + cs.sum) / s.cfg.period
      ∧ (tally cs s).final.acc = (s.acc + cs.sum) % s.cfg.period
      ∧ (s.imask ≠ 0x00 → (tally cs s).requestCount = (tally cs s).wrapCount)

/-! ## The response -/

/-- The packed response, the spec's decision D1 (R59, log entries 5 and 6): `KIND`, `IO`, `WR`, `RD`, `A` copied, `INT`
computed, `D` copied unless a handler drives it. -/
def Obligations.ResponseCopiesThePins : Prop :=
  ∀ (i : Instr) (s : State), ((txnCycles i).isSome = true ∨ isSnd i = true) →
    ∃ t r, exec i s = .next t ∧ t.response = some r
      ∧ packResponse r &&& 0xF700FFFF#32 = (encode i).setWidth 32 &&& 0xF700FFFF#32
      ∧ (packResponse r).getLsbD 27 =
          (match txnCycles i with
            | some cyc => decide (s.cfg.period ≤ s.acc + cyc.toNat ∧ s.imask ≠ 0x00)
            | none => false)
      ∧ (packResponse r).extractLsb' 16 8 = r.dout
      ∧ (isDrivenRead i = false → r.dout = fieldD (encode i))

/-! ## The palette region -/

/-- R81: `PAL.RD` is decoded at every address of the region, returns the stored RAM byte and changes nothing else; a byte
written is read back; after reset every address reads 0x00. (`accAfter` is R119 with D23, log entry 14.) -/
def Obligations.PaletteReadReturnsTheRamByte : Prop :=
  ∀ (cyc : Cycles) (a : Addr) (d : Byte) (s : State), a.isPalette = true →
    decode (readWord cyc a d) = .ok (.palRd cyc a d)
    ∧ exec (.palRd cyc a d) s = .next { s with
      acc := accAfter s cyc
      response := readReply s cyc false a (ramAt s (a.toNat - 0x8000)) }
    ∧ ramAt State.reset (a.toNat - 0x8000) = 0x00
    ∧ ∀ (c' : Cycles) (b : Byte),
        (∃ t, exec (if a.getLsbD 0 then .palWrO c' a b else .palWrE c' a b) s = .next t
          ∧ exec (.palRd cyc a d) t = .next { t with
              acc := accAfter t cyc
              response := readReply t cyc false a b })

/-- R82: `PAL.WR.E` is decoded at every even address of the region, stores the byte and replaces green and red of its entry,
and nothing else. (`accAfter` is R119 with D23, log entry 14.) -/
def Obligations.EvenPaletteWriteSetsGreenAndRed : Prop :=
  ∀ (cyc : Cycles) (a : Addr) (d : Byte) (s : State), a.isPalette = true → a.getLsbD 0 = false →
    decode (writeWord cyc a d) = .ok (.palWrE cyc a d) ∧
    ∃ t, exec (.palWrE cyc a d) s = .next t
      ∧ t = { s with ram := t.ram, pal := t.pal, acc := accAfter s cyc, response := writeReply s cyc false a d }
      ∧ (∀ j, ramAt t j = if j = a.toNat - 0x8000 then d else ramAt s j)
      ∧ (∀ j, palAt t j = if j = (a.toNat - 0x9C00) / 2
          then 0xFF#8 ++ (palAt s j).extractLsb' 16 8 ++ rep4 (d.extractLsb' 4 4) ++ rep4 (d.extractLsb' 0 4)
          else palAt s j)

/-- R83: `PAL.WR.O` is decoded at every odd address of the region, stores the byte and replaces blue of its entry, and nothing
else. (`accAfter` is R119 with D23, log entry 14.) -/
def Obligations.OddPaletteWriteSetsBlue : Prop :=
  ∀ (cyc : Cycles) (a : Addr) (d : Byte) (s : State), a.isPalette = true → a.getLsbD 0 = true →
    decode (writeWord cyc a d) = .ok (.palWrO cyc a d) ∧
    ∃ t, exec (.palWrO cyc a d) s = .next t
      ∧ t = { s with ram := t.ram, pal := t.pal, acc := accAfter s cyc, response := writeReply s cyc false a d }
      ∧ (∀ j, ramAt t j = if j = a.toNat - 0x8000 then d else ramAt s j)
      ∧ (∀ j, palAt t j = if j = (a.toNat - 0x9C00) / 2
          then 0xFF#8 ++ rep4 (d.extractLsb' 0 4) ++ (palAt s j).extractLsb' 0 16
          else palAt s j)

/-- R113: the arithmetic form of `PALENC`. -/
def Obligations.PaletteEncoderArithmetic : Prop :=
  ∀ (cur : Color) (b : Byte),
    palEnc cur true b =
      0xFF000000#32 ||| (((b &&& 0x0F#8).setWidth 32 * 0x11#32) <<< 16) ||| (cur &&& 0x0000FFFF#32)
    ∧ palEnc cur false b =
      0xFF000000#32 ||| (cur &&& 0x00FF0000#32) ||| (((b >>> (4 : Nat)).setWidth 32 * 0x11#32) <<< 8)
        ||| ((b &&& 0x0F#8).setWidth 32 * 0x11#32)

/-- R113: the encoder forces alpha, whatever the entry held, and the odd case ignores the high nibble (R114, R116, which the
spec derives). -/
def Obligations.PaletteEncoderIsOpaque : Prop :=
  ∀ (cur : Color) (odd : Bool) (b : Byte),
    (palEnc cur odd b).extractLsb' 24 8 = 0xFF#8 ∧ palEnc cur true b = palEnc cur true (b &&& 0x0F#8)

/-- R113: order independence, idempotence, and the later write of one parity overrides (R117, which the spec derives). -/
def Obligations.PaletteEncoderOrderIndependent : Prop :=
  ∀ (c : Color) (e o : Byte),
    palEnc (palEnc c false e) true o = palEnc (palEnc c true o) false e
      ∧ palEnc (palEnc c false e) true o =
          0xFF#8 ++ rep4 (o.extractLsb' 0 4) ++ rep4 (e.extractLsb' 4 4) ++ rep4 (e.extractLsb' 0 4)
      ∧ ∀ (p : Bool) (b1 b2 : Byte), palEnc (palEnc c p b1) p b1 = palEnc c p b1
          ∧ palEnc (palEnc c p b1) p b2 = palEnc c p b2

/-- R82, R83: `PALSET i, bgr`, an expansion of the spec's own (D20, log entry 28), sets entry `i` to the replicated nibbles,
whatever it held, and no other entry. -/
def Obligations.PalsetSetsOneEntry : Prop :=
  ∀ (i : Fin 128) (bgr : BitVec 12) (s : State),
    ∃ t, runWords (pseudoWords (.palset i bgr)) s = .next t
      ∧ ∀ j, palAt t j = if j = i.val
          then 0xFF#8 ++ rep4 (bgr.extractLsb' 8 4) ++ rep4 (bgr.extractLsb' 4 4) ++ rep4 (bgr.extractLsb' 0 4)
          else palAt s j

/-- `EI`, `DI` and `WAIT n` are the stimuli of their expansions; `FRAME` ends in `RENDER`: the spec's decision D20 (R74, log
entry 28). -/
def Obligations.PseudoStimuliExpand : Prop :=
  (∀ s : State, runWords (pseudoWords .ei) s = exec (.imaskWr 4 0x01) s
    ∧ runWords (pseudoWords .di) s = exec (.imaskWr 4 0x00) s)
  ∧ (∀ (n : Cycles) (s : State), runWords (pseudoWords (.wait n)) s = exec (.idle n false 0 0) s)
  ∧ ∀ ts : List Line, pseudoWords (.frame ts) = ts.map lineWord ++ [encode .render]

/-! ## The ports and the sound latch -/

/-- R84, R86, R88, R92, R94: each input port read is decoded at its address, answers its latch and changes only the
accumulator (`accAfter` is R119 with D23, log entry 14). -/
def Obligations.InputPortReadsAnswerTheLatch : Prop :=
  (∀ (cyc : Cycles) (d : Byte),
    decode (readWord cyc 0xB000 d) = .ok (.joy1Rd cyc d) ∧ decode (readWord cyc 0xB001 d) = .ok (.joy2Rd cyc d)
    ∧ decode (readWord cyc 0xB002 d) = .ok (.sysRd cyc d) ∧ decode (readWord cyc 0xB004 d) = .ok (.dip1Rd cyc d)
    ∧ decode (readWord cyc 0xB005 d) = .ok (.dip2Rd cyc d))
  ∧ ∀ (cyc : Cycles) (d : Byte) (s : State),
    exec (.joy1Rd cyc d) s = .next { s with acc := accAfter s cyc, response := readReply s cyc false 0xB000 s.joy1 }
    ∧ exec (.joy2Rd cyc d) s = .next { s with acc := accAfter s cyc, response := readReply s cyc false 0xB001 s.joy2 }
    ∧ exec (.sysRd cyc d) s = .next { s with acc := accAfter s cyc, response := readReply s cyc false 0xB002 s.sys }
    ∧ exec (.dip1Rd cyc d) s = .next { s with acc := accAfter s cyc, response := readReply s cyc false 0xB004 s.dip1 }
    ∧ exec (.dip2Rd cyc d) s = .next { s with acc := accAfter s cyc, response := readReply s cyc false 0xB005 s.dip2 }

/-- R85: `IMASK.WR` is decoded at 0xB000 and replaces the mask; its own request is decided by the old mask, the next
transaction's by the new. -/
def Obligations.MaskWriteTakesEffectNext : Prop :=
  ∀ (cyc : Cycles) (d : Byte) (s : State), decode (writeWord cyc 0xB000 d) = .ok (.imaskWr cyc d) ∧ ∃ t,
    exec (.imaskWr cyc d) s = .next t
      ∧ t = { s with imask := d, acc := accAfter s cyc, response := writeReply s cyc false 0xB000 d }
      ∧ ∀ (i : Instr) (cyc' : Cycles), txnCycles i = some cyc' →
          ∃ u r, exec i t = .next u ∧ u.response = some r
            ∧ r.int = decide (s.cfg.period ≤ (s.acc + cyc.toNat) % s.cfg.period + cyc'.toNat ∧ d ≠ 0x00)

/-- R87, R89, R91, R93, R95, R97: the no-op port writes are decoded at their addresses and change only the accumulator. -/
def Obligations.NoopPortWritesAdvanceOnly : Prop :=
  (∀ (cyc : Cycles) (d : Byte),
    decode (writeWord cyc 0xB001 d) = .ok (.b001Wr cyc d) ∧ decode (writeWord cyc 0xB002 d) = .ok (.b002Wr cyc d)
    ∧ decode (writeWord cyc 0xB003 d) = .ok (.b003Wr cyc d) ∧ decode (writeWord cyc 0xB004 d) = .ok (.flipWr cyc d)
    ∧ decode (writeWord cyc 0xB005 d) = .ok (.b005Wr cyc d) ∧ decode (writeWord cyc 0xB800 d) = .ok (.slatchWr cyc d))
  ∧ ∀ (cyc : Cycles) (d : Byte) (s : State),
    exec (.b001Wr cyc d) s = .next { s with acc := accAfter s cyc, response := writeReply s cyc false 0xB001 d }
    ∧ exec (.b002Wr cyc d) s = .next { s with acc := accAfter s cyc, response := writeReply s cyc false 0xB002 d }
    ∧ exec (.b003Wr cyc d) s = .next { s with acc := accAfter s cyc, response := writeReply s cyc false 0xB003 d }
    ∧ exec (.flipWr cyc d) s = .next { s with acc := accAfter s cyc, response := writeReply s cyc false 0xB004 d }
    ∧ exec (.b005Wr cyc d) s = .next { s with acc := accAfter s cyc, response := writeReply s cyc false 0xB005 d }
    ∧ exec (.slatchWr cyc d) s = .next { s with acc := accAfter s cyc, response := writeReply s cyc false 0xB800 d }

/-- R90, R96: an undriven read changes only the accumulator. That it answers the incoming data line is the spec's decision
D22 (R79, log entry 10), and that the I/O space maps nothing its decision D16 (log entry 11). -/
def Obligations.UndrivenReadsAnswerTheDataLine : Prop :=
  ∀ (cyc : Cycles) (a : Addr) (d : Byte) (s : State),
    exec (.b003Rd cyc d) s = .next { s with acc := accAfter s cyc, response := readReply s cyc false 0xB003 d }
    ∧ exec (.slatchRd cyc d) s = .next { s with acc := accAfter s cyc, response := readReply s cyc false 0xB800 d }
    ∧ exec (.ioRd cyc a d) s = .next { s with acc := accAfter s cyc, response := readReply s cyc true a d }

/-! ## The resolver -/

/-- R98, R99: the program ROM reads, decoded at every address of their ranges. An image byte that is not listed reads 0x00
(log entry 22). -/
def Obligations.RomReadsAnswerTheImage : Prop :=
  ∀ (cyc : Cycles) (a : Addr) (d : Byte) (s : State),
    (a.toNat ≤ 0x7FFF → decode (readWord cyc a d) = .ok (.romlRd cyc a d) ∧
      exec (.romlRd cyc a d) s = .next { s with
        acc := accAfter s cyc
        response := readReply s cyc false a (readCell romDefault s.cfg.progRomLo.cells a.toNat) })
    ∧ (0xC000 ≤ a.toNat → a.toNat ≤ 0xDFFF → decode (readWord cyc a d) = .ok (.romhRd cyc a d) ∧
      exec (.romhRd cyc a d) s = .next { s with
        acc := accAfter s cyc
        response := readReply s cyc false a (readCell romDefault s.cfg.progRomHi.cells (a.toNat - 0xC000)) })

/-- R105 and, as the spec derives from it, R100, R101: writes to ROM and to no region change only the accumulator; so do
writes to the I/O space, the spec's decision D16 (R107, log entry 11). -/
def Obligations.WritesOutsideRamAdvanceOnly : Prop :=
  ∀ (cyc : Cycles) (a : Addr) (d : Byte) (s : State),
    (a.isRomLow = true →
      exec (.romlWr cyc a d) s = .next { s with acc := accAfter s cyc, response := writeReply s cyc false a d })
    ∧ (a.isRomHigh = true →
      exec (.romhWr cyc a d) s = .next { s with acc := accAfter s cyc, response := writeReply s cyc false a d })
    ∧ (a.isUnmapped = true →
      exec (.unmapWr cyc a d) s = .next { s with acc := accAfter s cyc, response := writeReply s cyc false a d })
    ∧ exec (.ioWr cyc a d) s = .next { s with acc := accAfter s cyc, response := writeReply s cyc true a d }

/-- R102: `RAM.RD` is decoded at every address of its ranges and returns the byte. -/
def Obligations.PlainRamReadReturnsTheByte : Prop :=
  ∀ (cyc : Cycles) (a : Addr) (d : Byte) (s : State), a.isPlainRam = true →
    decode (readWord cyc a d) = .ok (.ramRd cyc a d)
    ∧ exec (.ramRd cyc a d) s = .next { s with
      acc := accAfter s cyc
      response := readReply s cyc false a (ramAt s (a.toNat - 0x8000)) }

/-- R103: `RAM.WR` is decoded at every address of its ranges, stores one byte and changes no palette entry and nothing else. -/
def Obligations.PlainRamWriteStoresOneByte : Prop :=
  ∀ (cyc : Cycles) (a : Addr) (d : Byte) (s : State), a.isPlainRam = true →
    decode (writeWord cyc a d) = .ok (.ramWr cyc a d) ∧
    ∃ t, exec (.ramWr cyc a d) s = .next t
      ∧ t = { s with ram := t.ram, acc := accAfter s cyc, response := writeReply s cyc false a d }
      ∧ ∀ j, ramAt t j = if j = a.toNat - 0x8000 then d else ramAt s j

/-- `UNMAP.RD` answers the resolver's byte, not the data line. That it is one constant parameter is the spec's decision D10
(R104, log entry 13). -/
def Obligations.UnmappedReadAnswersTheParameter : Prop :=
  ∀ (cyc : Cycles) (a : Addr) (d : Byte) (s : State), a.isUnmapped = true →
    exec (.unmapRd cyc a d) s = .next { s with
      acc := accAfter s cyc
      response := readReply s cyc false a s.cfg.unmappedRead }

/-- R40, R77: the read column of the address map, for every address: the word of a read of `a` completes, answers the byte of
the first matching row, and changes only the accumulator. The bytes of undriven and unmapped reads are the spec's decisions
D22 and D10 (log entries 10 and 13). -/
def Obligations.EveryAddressReadsByTheMap : Prop :=
  ∀ (cyc : Cycles) (a : Addr) (d : Byte) (s : State),
    handle (readWord cyc a d) s = .next { s with
      acc := accAfter s cyc
      response := readReply s cyc false a (mapRead s a d) }

/-- R40, R77: the write column of the address map, for every address. -/
def Obligations.EveryAddressWritesByTheMap : Prop :=
  ∀ (cyc : Cycles) (a : Addr) (d : Byte) (s : State),
    ∃ t, handle (writeWord cyc a d) s = .next t
      ∧ t = { s with imask := t.imask, ram := t.ram, pal := t.pal, acc := accAfter s cyc,
                     response := writeReply s cyc false a d }
      ∧ t.imask = (if a.toNat = 0xB000 then d else s.imask)
      ∧ (∀ j, ramAt t j = if (0x8000 ≤ a.toNat ∧ a.toNat ≤ 0x9FFF) ∧ j = a.toNat - 0x8000 then d else ramAt s j)
      ∧ (∀ j, palAt t j = if (0x9C00 ≤ a.toNat ∧ a.toNat ≤ 0x9CFF) ∧ j = (a.toNat - 0x9C00) / 2
          then palEnc (palAt s j) (a.toNat % 2 = 1) d else palAt s j)

/-- R45: a ROM index is reduced modulo the declared size. R44, in part: RAM indices are below 8192, and are `a[12:0]` in RAM. -/
def Obligations.IndicesAreContained : Prop :=
  (∀ (bank : Image) (n i : Nat), romRead bank n i = readCell romDefault bank.cells (i % n))
    ∧ (∀ (bank : Image) (n k : Nat), romRead bank n (n + k) = romRead bank n k)
    ∧ (∀ a : Nat, ramIdx a < 8192)
    ∧ (∀ a : Addr, 0x8000 ≤ a.toNat → a.toNat ≤ 0x9FFF → ramIdx a.toNat = (a.extractLsb' 0 13).toNat)

/-! ## Idle, reserved, sound board, host latches -/

/-- R76: `IDLE` performs the timing step and nothing else: the spec's decision D21 (R78, log entry 12). -/
def Obligations.IdleAdvancesOnly : Prop :=
  ∀ (cyc : Cycles) (io : Bool) (a : Addr) (d : Byte) (s : State),
    exec (.idle cyc io a d) s = .next { s with
      acc := accAfter s cyc
      response := some { board := .main, int := intOf s cyc, io := io, wr := false, rd := false, dout := d, a := a } }
    ∧ (s.acc < s.cfg.period → accAfter s 0 = s.acc ∧ intOf s 0 = false)

/-- `RSVD.RDWR` is refused in every state: the spec's decision D18 (R80, log entry 8). -/
def Obligations.ReadWithWriteIsRefused : Prop :=
  ∀ (cyc : Cycles) (io : Bool) (a : Addr) (d : Byte) (s : State),
    exec (.rsvdRdwr cyc io a d) s = .refused .readWriteTogether

/-- R108: the sound-board stimuli have no effect; that `dout` is the incoming data line, `int` is 0 and no cycle is counted is
the spec's decision D17 (R109-R111, log entry 20). -/
def Obligations.SoundBoardIsAStub : Prop :=
  ∀ (cyc : Cycles) (io : Bool) (a : Addr) (d : Byte) (s : State),
    exec (.sndRd cyc io a d) s = .next { s with response := sndReply io false true a d }
    ∧ exec (.sndWr cyc io a d) s = .next { s with response := sndReply io true false a d }
    ∧ exec (.sndIdle cyc io a d) s = .next { s with response := sndReply io false false a d }

/-- A `SNDTXN` changes nothing but its response, and no other stimulus but `RESET` reads or writes `SND_RAM` (R112, which the
spec derives from the stub, D17, log entry 20). -/
def Obligations.BoardsAreIndependent : Prop :=
  (∀ (i : Instr) (s t : State), isSnd i = true → exec i s = .next t → t = { s with response := t.response })
    ∧ ∀ (i : Instr) (s t : State) (m : List Host.Cell), i ≠ .reset → exec i s = .next t →
        exec i { s with sndRam := m } = .next { t with sndRam := m }

/-- Each `SETIN` replaces its latch and touches no other state: the spec's decision D25 (R148-R153, log entry 19). -/
def Obligations.SetinReplacesOneLatch : Prop :=
  ∀ (v : Byte) (s : State),
    exec (.setinJoy1 v) s = .next { s with joy1 := v, response := none }
    ∧ exec (.setinJoy2 v) s = .next { s with joy2 := v, response := none }
    ∧ exec (.setinSys v) s = .next { s with sys := v, response := none }
    ∧ exec (.setinDip1 v) s = .next { s with dip1 := v, response := none }
    ∧ exec (.setinDip2 v) s = .next { s with dip2 := v, response := none }

/-! ## Who writes what -/

/-- R14, R16-R18: a latch changes only by its own `SETIN` (the spec's decision D25, log entry 19) or by `RESET`. -/
def Obligations.LatchesAreWrittenOnlyByTheHost : Prop :=
  ∀ (i : Instr) (s t : State), exec i s = .next t → i ≠ .reset →
    ((∀ v, i ≠ .setinJoy1 v) → t.joy1 = s.joy1) ∧ ((∀ v, i ≠ .setinJoy2 v) → t.joy2 = s.joy2)
      ∧ ((∀ v, i ≠ .setinSys v) → t.sys = s.sys) ∧ ((∀ v, i ≠ .setinDip1 v) → t.dip1 = s.dip1)
      ∧ ((∀ v, i ≠ .setinDip2 v) → t.dip2 = s.dip2)

/-- R21, R22: the mask changes only by `IMASK.WR`, the accumulator only by a `TXN`, or either by `RESET`. -/
def Obligations.MaskAndAccumulatorWriters : Prop :=
  ∀ (i : Instr) (s t : State), exec i s = .next t → i ≠ .reset →
    ((∀ cyc d, i ≠ .imaskWr cyc d) → t.imask = s.imask) ∧ (txnCycles i = none → t.acc = s.acc)

/-- R24, R26, R28, R29, R30: the palette changes only by palette writes, RAM by palette writes and `RAM.WR`, the frame by
`RENDER`, sound RAM by nothing, or any of them by `RESET`. -/
def Obligations.MemoryWriters : Prop :=
  ∀ (i : Instr) (s t : State), i.wellFormed = true → exec i s = .next t → i ≠ .reset →
    ((∀ cyc a d, i ≠ .palWrE cyc a d ∧ i ≠ .palWrO cyc a d) → t.pal = s.pal)
      ∧ ((∀ cyc a d, i ≠ .palWrE cyc a d ∧ i ≠ .palWrO cyc a d ∧ i ≠ .ramWr cyc a d) → t.ram = s.ram)
      ∧ (i ≠ .render → t.fb = s.fb ∧ t.fbValid = s.fbValid) ∧ t.sndRam = s.sndRam ∧ t.fbDraw = s.fbDraw

/-- R50: a main-board read changes nothing but the accumulator (and answers its response); where a handler drives it, the same
read again gives the same byte (R49, which the spec derives). -/
def Obligations.ReadsHaveNoSideEffect : Prop :=
  ∀ (i : Instr) (s t : State), isMainRead i = true → exec i s = .next t →
    t = { s with acc := t.acc, response := t.response }
      ∧ (isDrivenRead i = true → ∃ u, exec i t = .next u
          ∧ u.response.map (fun r => r.dout) = t.response.map (fun r => r.dout))

/-! ## The pipeline -/

/-- R127: `RENDER` completes in every state and writes only the framebuffer and `FB_VALID`. -/
def Obligations.RenderWritesOnlyTheFrame : Prop :=
  ∀ s : State, ∃ t, exec .render s = .next t ∧ t = { s with fb := t.fb, fbValid := true, response := none }

/-- R127, R136, R137: the closed form of a frame (R138, which the spec derives). Cell order, bank bit, colour nibble and plane
order are the spec's decisions D7, D13, D24 (log entry 16), the background colour its decision D9 (log entry 17). -/
def Obligations.RenderedFrameHasTheClosedForm : Prop :=
  ∀ s : State, ∃ t, exec .render s = .next t ∧ t.fbValid = true
    ∧ ∀ x < 256, ∀ y < 256, sample t (y * 256 + x) = frameAt s x y

/-- R127: a frame is a function of RAM, palette, character ROM and parameters only, and rendering twice gives it again (R139,
which the spec derives). -/
def Obligations.RenderIsDeterminedAndIdempotent : Prop :=
  (∀ (s u t t' : State) (lo hi bg sp tm : Image) (nb ns nt : Nat),
    u.ram = s.ram → u.pal = s.pal →
    u.cfg = { s.cfg with progRomLo := lo, progRomHi := hi, romBgTiles := bg, romSprites := sp, romTilemap := tm,
                         nBgTiles := nb, nSprites := ns, nTilemap := nt } →
    exec .render s = .next t → exec .render u = .next t' → ∀ i < 65536, sample t' i = sample t i)
  ∧ ∀ s t t' : State, exec .render s = .next t → exec .render t = .next t' → ∀ i < 65536, sample t' i = sample t i

/-- R127, R137: of RAM, a frame depends only on the character-code and colour/bank bytes, so not on a background-select byte
outside the two regions (R132, which the spec derives from its placeholder fill, D9, log entry 17). -/
def Obligations.FrameDependsOnlyOnTheCellBytes : Prop :=
  ∀ s u t t' : State, u.cfg = s.cfg → u.pal = s.pal →
    (∀ off < 1024, ramAt u (ramIdx (s.cfg.fgCodeBase.toNat + off)) = ramAt s (ramIdx (s.cfg.fgCodeBase.toNat + off))
      ∧ ramAt u (ramIdx (s.cfg.fgColorBase.toNat + off)) = ramAt s (ramIdx (s.cfg.fgColorBase.toNat + off))) →
    exec .render s = .next t → exec .render u = .next t' → ∀ i < 65536, sample t' i = sample t i

/-- R136, R137: a row whose three plane bytes are zero shows the background fill (R140, which the spec derives; the fill is its
decision D9, log entry 17). -/
def Obligations.ZeroPlaneRowsAreTransparent : Prop :=
  ∀ (s t : State) (cx cy row : Nat), cx < 32 → cy < 32 → row < 8 →
    (∀ k < 3, planeOf s (tileOf s cx cy) row k = 0x00) → exec .render s = .next t →
    ∀ col < 8, sample t ((cy * 8 + row) * 256 + (cx * 8 + col)) = s.cfg.bgFill

/-- R136, R137: with an all-zero character ROM every sample is the fill, whatever RAM holds (R141, which the spec derives; the
fill is its decision D9, log entry 17). -/
def Obligations.BaselineFrameIsTheFill : Prop :=
  ∀ s t : State, (∀ k, romRead s.cfg.romChars s.cfg.nChars k = 0x00) → exec .render s = .next t →
    ∀ i < 65536, sample t i = s.cfg.bgFill

/-- R24, R127: every sample after `RENDER` is opaque, in a state that meets the invariant (R142, which the spec derives). -/
def Obligations.RenderedFrameIsOpaque : Prop :=
  ∀ s t : State, configWellFormed s.cfg = true → Inv s → exec .render s = .next t →
    ∀ i < 65536, (sample t i).extractLsb' 24 8 = 0xFF#8

/-- What the background lookup gives, on naturals: the spec's decisions D6 and D8 (R129, R130, log entry 17). -/
def Obligations.BackgroundLookup : Prop :=
  ∀ (cfg : Config) (sel : Byte) (cell : Nat),
    let off := sel.toNat % 8 * cfg.tmPageSize + cell
    let attr := romRead cfg.romTilemap cfg.nTilemap (off + cfg.tmAttrOffset)
    let c := bgLookup cfg (selPage sel) (selVisible sel) cell
    c.code = (if sel.getLsbD 4 then romRead cfg.romTilemap cfg.nTilemap off else cfg.blankTile)
      ∧ c.colgrp.toNat = attr.toNat % 16 ∧ (c.vflip = true ↔ 128 ≤ attr.toNat)
end

