-- ==== Sys2Proof/Laws/Decode.lean ====
section
/-!
SUPPORT. The fields of a packed stimulus word, and what decoding an address class gives.
-/

namespace Sys2Proof

/-! ## Fields of `packWord` -/

/-- R57: bit `i` of a packed word. -/
theorem getLsbD_packWord (cyc : Cycles) (k : BitVec 4) (io wr rd : Bool) (d : Byte) (a : Addr) (i : Nat) :
    (packWord cyc k io wr rd d a).getLsbD i =
      if i < 16 then a.getLsbD i
      else if i < 24 then d.getLsbD (i - 16)
      else if i = 24 then rd
      else if i = 25 then wr
      else if i = 26 then io
      else if i = 27 then false
      else if i < 32 then k.getLsbD (i - 28)
      else cyc.getLsbD (i - 32) := by
  simp only [packWord, BitVec.getLsbD_append, BitVec.getLsbD_ofBool, Nat.sub_sub]
  repeat' split
  all_goals first
    | omega
    | rfl
    | (simp only [Bool.and_false])
    | (rename_i h; simp [show i = _ from h])

@[simp] theorem fieldCyc_packWord (cyc : Cycles) (k : BitVec 4) (io wr rd : Bool) (d : Byte) (a : Addr) :
    fieldCyc (packWord cyc k io wr rd d a) = cyc := by
  apply BitVec.eq_of_getLsbD_eq
  intro i hi
  simp only [fieldCyc, BitVec.getLsbD_extractLsb', getLsbD_packWord, hi, decide_true, Bool.true_and,
    Nat.add_sub_cancel_left]
  repeat' split
  all_goals first | omega | rfl

@[simp] theorem fieldKind_packWord (cyc : Cycles) (k : BitVec 4) (io wr rd : Bool) (d : Byte) (a : Addr) :
    fieldKind (packWord cyc k io wr rd d a) = k := by
  apply BitVec.eq_of_getLsbD_eq
  intro i hi
  simp only [fieldKind, BitVec.getLsbD_extractLsb', getLsbD_packWord, hi, decide_true, Bool.true_and,
    Nat.add_sub_cancel_left]
  repeat' split
  all_goals first | omega | rfl

@[simp] theorem fieldIo_packWord (cyc : Cycles) (k : BitVec 4) (io wr rd : Bool) (d : Byte) (a : Addr) :
    fieldIo (packWord cyc k io wr rd d a) = io := getLsbD_packWord cyc k io wr rd d a 26

@[simp] theorem fieldWr_packWord (cyc : Cycles) (k : BitVec 4) (io wr rd : Bool) (d : Byte) (a : Addr) :
    fieldWr (packWord cyc k io wr rd d a) = wr := getLsbD_packWord cyc k io wr rd d a 25

@[simp] theorem fieldRd_packWord (cyc : Cycles) (k : BitVec 4) (io wr rd : Bool) (d : Byte) (a : Addr) :
    fieldRd (packWord cyc k io wr rd d a) = rd := getLsbD_packWord cyc k io wr rd d a 24

@[simp] theorem fieldD_packWord (cyc : Cycles) (k : BitVec 4) (io wr rd : Bool) (d : Byte) (a : Addr) :
    fieldD (packWord cyc k io wr rd d a) = d := by
  apply BitVec.eq_of_getLsbD_eq
  intro i hi
  simp only [fieldD, BitVec.getLsbD_extractLsb', getLsbD_packWord, hi, decide_true, Bool.true_and,
    Nat.add_sub_cancel_left]
  repeat' split
  all_goals first | omega | rfl

@[simp] theorem fieldA_packWord (cyc : Cycles) (k : BitVec 4) (io wr rd : Bool) (d : Byte) (a : Addr) :
    fieldA (packWord cyc k io wr rd d a) = a := by
  apply BitVec.eq_of_getLsbD_eq
  intro i hi
  simp only [fieldA, BitVec.getLsbD_extractLsb', getLsbD_packWord, hi, decide_true, Bool.true_and, Nat.zero_add, if_true]

/-! ## Fields of `setinWord` -/

@[simp] theorem fieldKind_setinWord (sel : BitVec 3) (v : Byte) : fieldKind (setinWord sel v) = 2 :=
  fieldKind_packWord _ _ _ _ _ _ _

@[simp] theorem fieldD_setinWord (sel : BitVec 3) (v : Byte) : fieldD (setinWord sel v) = v :=
  fieldD_packWord _ _ _ _ _ _ _

@[simp] theorem fieldSel_setinWord (sel : BitVec 3) (v : Byte) : fieldSel (setinWord sel v) = sel := by
  apply BitVec.eq_of_getLsbD_eq
  intro i hi
  have h16 : i < 16 := by omega
  simp only [fieldSel, setinWord, BitVec.getLsbD_extractLsb', getLsbD_packWord, Nat.zero_add, BitVec.getLsbD_setWidth,
    hi, h16, if_true, decide_true, Bool.true_and]

/-- The must-be-zero bits of a `SETIN` word are zero (R61). -/
theorem setinWord_zero_bits (sel : BitVec 3) (v : Byte) :
    (setinWord sel v).extractLsb' 32 32 = 0#32 ∧ (setinWord sel v).extractLsb' 24 4 = 0#4
      ∧ (setinWord sel v).extractLsb' 3 13 = 0#13 := by
  refine ⟨fieldCyc_packWord 0 2 false false false v (sel.setWidth 16), ?_, ?_⟩
  · apply BitVec.eq_of_getLsbD_eq
    intro i hi
    have h : i = 0 ∨ i = 1 ∨ i = 2 ∨ i = 3 := by omega
    rw [BitVec.getLsbD_extractLsb', setinWord, getLsbD_packWord]
    rcases h with rfl | rfl | rfl | rfl <;> rfl
  · apply BitVec.eq_of_getLsbD_eq
    intro i hi
    rw [BitVec.getLsbD_extractLsb', setinWord, getLsbD_packWord, if_pos (by omega), BitVec.getLsbD_setWidth,
      BitVec.getLsbD_of_ge sel (3 + i) (by omega)]
    simp

/-! ## Address classes -/

/-- Every stimulus the memory-read map answers is well formed. -/
theorem decodeMemRead_wellFormed (cyc : Cycles) (a : Addr) (d : Byte) : (decodeMemRead cyc a d).wellFormed = true := by
  unfold decodeMemRead
  simp only []
  repeat' split
  all_goals
    simp only [Instr.wellFormed, Addr.isPalette, Addr.isRomLow, Addr.isPlainRam, Addr.isRomHigh, Addr.isUnmapped,
      Bool.or_eq_true, Bool.and_eq_true, decide_eq_true_eq]
  all_goals omega

/-- Every stimulus the memory-write map answers is well formed. -/
theorem decodeMemWrite_wellFormed (cyc : Cycles) (a : Addr) (d : Byte) : (decodeMemWrite cyc a d).wellFormed = true := by
  unfold decodeMemWrite
  simp only []
  repeat' split
  all_goals
    simp only [Instr.wellFormed, Addr.isPalette, Addr.isRomLow, Addr.isPlainRam, Addr.isRomHigh, Addr.isUnmapped,
      Bool.or_eq_true, Bool.and_eq_true, decide_eq_true_eq, Bool.not_eq_true'] at *
  all_goals first | omega | (refine ⟨by omega, ?_⟩; simp_all)

/-! ## The two memory-space words -/

/-- R64 (3): the word of a memory-space read is decoded by the read map. -/
theorem decode_readWord (cyc : Cycles) (a : Addr) (d : Byte) : decode (readWord cyc a d) = .ok (decodeMemRead cyc a d) := by
  simp [decode, readWord, decodeTxn]

/-- R64 (3): the word of a memory-space write is decoded by the write map. -/
theorem decode_writeWord (cyc : Cycles) (a : Addr) (d : Byte) :
    decode (writeWord cyc a d) = .ok (decodeMemWrite cyc a d) := by
  simp [decode, writeWord, decodeTxn]

end Sys2Proof
end

