-- ==== Sys2Proof/Laws/Memory.lean ====
section
/-!
SUPPORT. The laws of a sparse memory: a read after a write to the same index gives the value written, a write leaves every
other index alone, and the canonical form is kept.
-/

namespace Sys2Proof.Machine

variable {α : Type}

@[simp] theorem readCell_nil (d : α) (a : Nat) : readCell d [] a = d := rfl

theorem readCell_cons (d : α) (c : Nat × α) (m : Cells α) (a : Nat) :
    readCell d (c :: m) a = if c.1 = a then c.2 else readCell d m a := rfl

/-- A filter by index: what it keeps reads as before, what it drops reads as the default. -/
theorem readCell_filter (d : α) (p : Nat → Bool) (m : Cells α) (a : Nat) :
    readCell d (m.filter fun c => p c.1) a = if p a then readCell d m a else d := by
  induction m with
  | nil => simp
  | cons c m ih =>
    by_cases hp : p c.1 = true
    · rw [List.filter_cons_of_pos (by simpa using hp), readCell_cons, ih, readCell_cons]
      by_cases hc : c.1 = a
      · subst hc; simp [hp]
      · simp [hc]
    · rw [List.filter_cons_of_neg (by simpa using hp), ih, readCell_cons]
      by_cases hc : c.1 = a
      · subst hc; simp [hp]
      · simp [hc]

theorem readCell_eraseCell (d : α) (m : Cells α) (a b : Nat) :
    readCell d (eraseCell a m) b = if b = a then d else readCell d m b := by
  have h := readCell_filter d (fun k => !(k == a)) m b
  simp only [eraseCell, h]
  by_cases hb : b = a <;> simp [hb]

theorem readCell_insertCell (d : α) (a : Nat) (v : α) (m : Cells α) (b : Nat) (h : ∀ c ∈ m, c.1 ≠ a) :
    readCell d (insertCell a v m) b = if b = a then v else readCell d m b := by
  induction m with
  | nil => simp [insertCell, readCell_cons, eq_comm]
  | cons c m ih =>
    obtain ⟨k, w⟩ := c
    have hk : k ≠ a := h (k, w) (by simp)
    have hm : ∀ c ∈ m, c.1 ≠ a := fun c hc => h c (by simp [hc])
    unfold insertCell
    split
    · simp [readCell_cons, eq_comm]
    · rw [readCell_cons, ih hm, readCell_cons]
      by_cases hb : b = a
      · subst hb; simp [hk]
      · simp [hb]

theorem mem_eraseCell {a : Nat} {m : Cells α} {c : Nat × α} : c ∈ eraseCell a m ↔ c ∈ m ∧ c.1 ≠ a := by
  simp [eraseCell]

/-- Everything a read after a write can give. -/
theorem readCell_writeCell [DecidableEq α] (d : α) (m : Cells α) (a : Nat) (v : α) (b : Nat) :
    readCell d (writeCell d m a v) b = if b = a then v else readCell d m b := by
  unfold writeCell
  split
  · next h => rw [readCell_eraseCell, h]
  · rw [readCell_insertCell _ _ _ _ _ (fun c hc => (mem_eraseCell.mp hc).2), readCell_eraseCell]
    by_cases hb : b = a <;> simp [hb]

theorem mem_insertCell {a : Nat} {v : α} {m : Cells α} {c : Nat × α} :
    c ∈ insertCell a v m ↔ c = (a, v) ∨ c ∈ m := by
  induction m with
  | nil => simp [insertCell]
  | cons x m ih =>
    obtain ⟨k, w⟩ := x
    unfold insertCell
    split
    · simp
    · simp only [List.mem_cons, ih]; tauto

theorem insertCell_rising {a : Nat} {v : α} {m : Cells α} (h : m.Pairwise fun x y => x.1 < y.1)
    (ha : ∀ c ∈ m, c.1 ≠ a) : (insertCell a v m).Pairwise fun x y => x.1 < y.1 := by
  induction m with
  | nil => simp [insertCell]
  | cons x m ih =>
    obtain ⟨k, w⟩ := x
    rw [List.pairwise_cons] at h
    have hk : k ≠ a := ha (k, w) (by simp)
    unfold insertCell
    split
    · next hlt =>
      refine List.pairwise_cons.mpr ⟨?_, List.pairwise_cons.mpr h⟩
      intro c hc
      rcases List.mem_cons.mp hc with rfl | hc
      · exact hlt
      · exact hlt.trans (h.1 c hc)
    · next hge =>
      refine List.pairwise_cons.mpr ⟨?_, ih h.2 fun c hc => ha c (by simp [hc])⟩
      intro c hc
      rcases mem_insertCell.mp hc with rfl | hc
      · show k < a
        omega
      · exact h.1 c hc

/-- The empty memory is canonical. -/
theorem Memory.wf_nil (d : α) (n : Nat) : Memory.wf d n ([] : Cells α) := by simp [Memory.wf]

/-- Dropping cells keeps the canonical form. -/
theorem Memory.wf_filter {d : α} {n : Nat} {m : Cells α} (p : Nat × α → Bool) (h : Memory.wf d n m) :
    Memory.wf d n (m.filter p) :=
  ⟨h.1.sublist List.filter_sublist, fun c hc => h.2 c (List.mem_of_mem_filter hc)⟩

/-- A write below the size keeps the canonical form. -/
theorem Memory.wf_writeCell [DecidableEq α] {d : α} {n : Nat} {m : Cells α} {a : Nat} (v : α) (h : Memory.wf d n m)
    (ha : a < n) : Memory.wf d n (writeCell d m a v) := by
  have he : Memory.wf d n (eraseCell a m) := Memory.wf_filter _ h
  unfold writeCell
  split
  · exact he
  · next hv =>
    refine ⟨insertCell_rising he.1 fun c hc => (mem_eraseCell.mp hc).2, fun c hc => ?_⟩
    rcases mem_insertCell.mp hc with rfl | hc
    · exact ⟨ha, hv⟩
    · exact he.2 c hc

/-- A memory that lists nothing at `a` reads there as its default. -/
theorem readCell_of_not_mem (d : α) (m : Cells α) (a : Nat) (h : ∀ c ∈ m, c.1 ≠ a) : readCell d m a = d := by
  induction m with
  | nil => rfl
  | cons c m ih =>
    rw [readCell_cons, if_neg (h c (by simp)), ih fun c hc => h c (by simp [hc])]

end Sys2Proof.Machine
end

