-- ==== Sys2Proof/Laws/State.lean ====
section
/-!
SUPPORT. One lemma per field per named update of the state: the update writes its own field and leaves every other.
-/

namespace Sys2Proof.Machine

/-! ## `setJoy1` -/

@[simp] theorem State.setJoy1_cfg (s : State) (v : Byte) : (s.setJoy1 v).cfg = s.cfg := rfl
@[simp] theorem State.setJoy1_joy1 (s : State) (v : Byte) : (s.setJoy1 v).joy1 = v := rfl
@[simp] theorem State.setJoy1_joy2 (s : State) (v : Byte) : (s.setJoy1 v).joy2 = s.joy2 := rfl
@[simp] theorem State.setJoy1_sys (s : State) (v : Byte) : (s.setJoy1 v).sys = s.sys := rfl
@[simp] theorem State.setJoy1_dip1 (s : State) (v : Byte) : (s.setJoy1 v).dip1 = s.dip1 := rfl
@[simp] theorem State.setJoy1_dip2 (s : State) (v : Byte) : (s.setJoy1 v).dip2 = s.dip2 := rfl
@[simp] theorem State.setJoy1_imask (s : State) (v : Byte) : (s.setJoy1 v).imask = s.imask := rfl
@[simp] theorem State.setJoy1_acc (s : State) (v : Byte) : (s.setJoy1 v).acc = s.acc := rfl
@[simp] theorem State.setJoy1_pal (s : State) (v : Byte) : (s.setJoy1 v).pal = s.pal := rfl
@[simp] theorem State.setJoy1_ram (s : State) (v : Byte) : (s.setJoy1 v).ram = s.ram := rfl
@[simp] theorem State.setJoy1_sndRam (s : State) (v : Byte) : (s.setJoy1 v).sndRam = s.sndRam := rfl
@[simp] theorem State.setJoy1_fb (s : State) (v : Byte) : (s.setJoy1 v).fb = s.fb := rfl
@[simp] theorem State.setJoy1_fbValid (s : State) (v : Byte) : (s.setJoy1 v).fbValid = s.fbValid := rfl
@[simp] theorem State.setJoy1_fbDraw (s : State) (v : Byte) : (s.setJoy1 v).fbDraw = s.fbDraw := rfl
@[simp] theorem State.setJoy1_response (s : State) (v : Byte) : (s.setJoy1 v).response = s.response := rfl
@[simp] theorem State.setJoy1_pending (s : State) (v : Byte) : (s.setJoy1 v).pending = s.pending := rfl

/-! ## `setJoy2` -/

@[simp] theorem State.setJoy2_cfg (s : State) (v : Byte) : (s.setJoy2 v).cfg = s.cfg := rfl
@[simp] theorem State.setJoy2_joy1 (s : State) (v : Byte) : (s.setJoy2 v).joy1 = s.joy1 := rfl
@[simp] theorem State.setJoy2_joy2 (s : State) (v : Byte) : (s.setJoy2 v).joy2 = v := rfl
@[simp] theorem State.setJoy2_sys (s : State) (v : Byte) : (s.setJoy2 v).sys = s.sys := rfl
@[simp] theorem State.setJoy2_dip1 (s : State) (v : Byte) : (s.setJoy2 v).dip1 = s.dip1 := rfl
@[simp] theorem State.setJoy2_dip2 (s : State) (v : Byte) : (s.setJoy2 v).dip2 = s.dip2 := rfl
@[simp] theorem State.setJoy2_imask (s : State) (v : Byte) : (s.setJoy2 v).imask = s.imask := rfl
@[simp] theorem State.setJoy2_acc (s : State) (v : Byte) : (s.setJoy2 v).acc = s.acc := rfl
@[simp] theorem State.setJoy2_pal (s : State) (v : Byte) : (s.setJoy2 v).pal = s.pal := rfl
@[simp] theorem State.setJoy2_ram (s : State) (v : Byte) : (s.setJoy2 v).ram = s.ram := rfl
@[simp] theorem State.setJoy2_sndRam (s : State) (v : Byte) : (s.setJoy2 v).sndRam = s.sndRam := rfl
@[simp] theorem State.setJoy2_fb (s : State) (v : Byte) : (s.setJoy2 v).fb = s.fb := rfl
@[simp] theorem State.setJoy2_fbValid (s : State) (v : Byte) : (s.setJoy2 v).fbValid = s.fbValid := rfl
@[simp] theorem State.setJoy2_fbDraw (s : State) (v : Byte) : (s.setJoy2 v).fbDraw = s.fbDraw := rfl
@[simp] theorem State.setJoy2_response (s : State) (v : Byte) : (s.setJoy2 v).response = s.response := rfl
@[simp] theorem State.setJoy2_pending (s : State) (v : Byte) : (s.setJoy2 v).pending = s.pending := rfl

/-! ## `setSys` -/

@[simp] theorem State.setSys_cfg (s : State) (v : Byte) : (s.setSys v).cfg = s.cfg := rfl
@[simp] theorem State.setSys_joy1 (s : State) (v : Byte) : (s.setSys v).joy1 = s.joy1 := rfl
@[simp] theorem State.setSys_joy2 (s : State) (v : Byte) : (s.setSys v).joy2 = s.joy2 := rfl
@[simp] theorem State.setSys_sys (s : State) (v : Byte) : (s.setSys v).sys = v := rfl
@[simp] theorem State.setSys_dip1 (s : State) (v : Byte) : (s.setSys v).dip1 = s.dip1 := rfl
@[simp] theorem State.setSys_dip2 (s : State) (v : Byte) : (s.setSys v).dip2 = s.dip2 := rfl
@[simp] theorem State.setSys_imask (s : State) (v : Byte) : (s.setSys v).imask = s.imask := rfl
@[simp] theorem State.setSys_acc (s : State) (v : Byte) : (s.setSys v).acc = s.acc := rfl
@[simp] theorem State.setSys_pal (s : State) (v : Byte) : (s.setSys v).pal = s.pal := rfl
@[simp] theorem State.setSys_ram (s : State) (v : Byte) : (s.setSys v).ram = s.ram := rfl
@[simp] theorem State.setSys_sndRam (s : State) (v : Byte) : (s.setSys v).sndRam = s.sndRam := rfl
@[simp] theorem State.setSys_fb (s : State) (v : Byte) : (s.setSys v).fb = s.fb := rfl
@[simp] theorem State.setSys_fbValid (s : State) (v : Byte) : (s.setSys v).fbValid = s.fbValid := rfl
@[simp] theorem State.setSys_fbDraw (s : State) (v : Byte) : (s.setSys v).fbDraw = s.fbDraw := rfl
@[simp] theorem State.setSys_response (s : State) (v : Byte) : (s.setSys v).response = s.response := rfl
@[simp] theorem State.setSys_pending (s : State) (v : Byte) : (s.setSys v).pending = s.pending := rfl

/-! ## `setDip1` -/

@[simp] theorem State.setDip1_cfg (s : State) (v : Byte) : (s.setDip1 v).cfg = s.cfg := rfl
@[simp] theorem State.setDip1_joy1 (s : State) (v : Byte) : (s.setDip1 v).joy1 = s.joy1 := rfl
@[simp] theorem State.setDip1_joy2 (s : State) (v : Byte) : (s.setDip1 v).joy2 = s.joy2 := rfl
@[simp] theorem State.setDip1_sys (s : State) (v : Byte) : (s.setDip1 v).sys = s.sys := rfl
@[simp] theorem State.setDip1_dip1 (s : State) (v : Byte) : (s.setDip1 v).dip1 = v := rfl
@[simp] theorem State.setDip1_dip2 (s : State) (v : Byte) : (s.setDip1 v).dip2 = s.dip2 := rfl
@[simp] theorem State.setDip1_imask (s : State) (v : Byte) : (s.setDip1 v).imask = s.imask := rfl
@[simp] theorem State.setDip1_acc (s : State) (v : Byte) : (s.setDip1 v).acc = s.acc := rfl
@[simp] theorem State.setDip1_pal (s : State) (v : Byte) : (s.setDip1 v).pal = s.pal := rfl
@[simp] theorem State.setDip1_ram (s : State) (v : Byte) : (s.setDip1 v).ram = s.ram := rfl
@[simp] theorem State.setDip1_sndRam (s : State) (v : Byte) : (s.setDip1 v).sndRam = s.sndRam := rfl
@[simp] theorem State.setDip1_fb (s : State) (v : Byte) : (s.setDip1 v).fb = s.fb := rfl
@[simp] theorem State.setDip1_fbValid (s : State) (v : Byte) : (s.setDip1 v).fbValid = s.fbValid := rfl
@[simp] theorem State.setDip1_fbDraw (s : State) (v : Byte) : (s.setDip1 v).fbDraw = s.fbDraw := rfl
@[simp] theorem State.setDip1_response (s : State) (v : Byte) : (s.setDip1 v).response = s.response := rfl
@[simp] theorem State.setDip1_pending (s : State) (v : Byte) : (s.setDip1 v).pending = s.pending := rfl

/-! ## `setDip2` -/

@[simp] theorem State.setDip2_cfg (s : State) (v : Byte) : (s.setDip2 v).cfg = s.cfg := rfl
@[simp] theorem State.setDip2_joy1 (s : State) (v : Byte) : (s.setDip2 v).joy1 = s.joy1 := rfl
@[simp] theorem State.setDip2_joy2 (s : State) (v : Byte) : (s.setDip2 v).joy2 = s.joy2 := rfl
@[simp] theorem State.setDip2_sys (s : State) (v : Byte) : (s.setDip2 v).sys = s.sys := rfl
@[simp] theorem State.setDip2_dip1 (s : State) (v : Byte) : (s.setDip2 v).dip1 = s.dip1 := rfl
@[simp] theorem State.setDip2_dip2 (s : State) (v : Byte) : (s.setDip2 v).dip2 = v := rfl
@[simp] theorem State.setDip2_imask (s : State) (v : Byte) : (s.setDip2 v).imask = s.imask := rfl
@[simp] theorem State.setDip2_acc (s : State) (v : Byte) : (s.setDip2 v).acc = s.acc := rfl
@[simp] theorem State.setDip2_pal (s : State) (v : Byte) : (s.setDip2 v).pal = s.pal := rfl
@[simp] theorem State.setDip2_ram (s : State) (v : Byte) : (s.setDip2 v).ram = s.ram := rfl
@[simp] theorem State.setDip2_sndRam (s : State) (v : Byte) : (s.setDip2 v).sndRam = s.sndRam := rfl
@[simp] theorem State.setDip2_fb (s : State) (v : Byte) : (s.setDip2 v).fb = s.fb := rfl
@[simp] theorem State.setDip2_fbValid (s : State) (v : Byte) : (s.setDip2 v).fbValid = s.fbValid := rfl
@[simp] theorem State.setDip2_fbDraw (s : State) (v : Byte) : (s.setDip2 v).fbDraw = s.fbDraw := rfl
@[simp] theorem State.setDip2_response (s : State) (v : Byte) : (s.setDip2 v).response = s.response := rfl
@[simp] theorem State.setDip2_pending (s : State) (v : Byte) : (s.setDip2 v).pending = s.pending := rfl

/-! ## `setImask` -/

@[simp] theorem State.setImask_cfg (s : State) (v : Byte) : (s.setImask v).cfg = s.cfg := rfl
@[simp] theorem State.setImask_joy1 (s : State) (v : Byte) : (s.setImask v).joy1 = s.joy1 := rfl
@[simp] theorem State.setImask_joy2 (s : State) (v : Byte) : (s.setImask v).joy2 = s.joy2 := rfl
@[simp] theorem State.setImask_sys (s : State) (v : Byte) : (s.setImask v).sys = s.sys := rfl
@[simp] theorem State.setImask_dip1 (s : State) (v : Byte) : (s.setImask v).dip1 = s.dip1 := rfl
@[simp] theorem State.setImask_dip2 (s : State) (v : Byte) : (s.setImask v).dip2 = s.dip2 := rfl
@[simp] theorem State.setImask_imask (s : State) (v : Byte) : (s.setImask v).imask = v := rfl
@[simp] theorem State.setImask_acc (s : State) (v : Byte) : (s.setImask v).acc = s.acc := rfl
@[simp] theorem State.setImask_pal (s : State) (v : Byte) : (s.setImask v).pal = s.pal := rfl
@[simp] theorem State.setImask_ram (s : State) (v : Byte) : (s.setImask v).ram = s.ram := rfl
@[simp] theorem State.setImask_sndRam (s : State) (v : Byte) : (s.setImask v).sndRam = s.sndRam := rfl
@[simp] theorem State.setImask_fb (s : State) (v : Byte) : (s.setImask v).fb = s.fb := rfl
@[simp] theorem State.setImask_fbValid (s : State) (v : Byte) : (s.setImask v).fbValid = s.fbValid := rfl
@[simp] theorem State.setImask_fbDraw (s : State) (v : Byte) : (s.setImask v).fbDraw = s.fbDraw := rfl
@[simp] theorem State.setImask_response (s : State) (v : Byte) : (s.setImask v).response = s.response := rfl
@[simp] theorem State.setImask_pending (s : State) (v : Byte) : (s.setImask v).pending = s.pending := rfl

/-! ## `setAcc` -/

@[simp] theorem State.setAcc_cfg (s : State) (v : Nat) : (s.setAcc v).cfg = s.cfg := rfl
@[simp] theorem State.setAcc_joy1 (s : State) (v : Nat) : (s.setAcc v).joy1 = s.joy1 := rfl
@[simp] theorem State.setAcc_joy2 (s : State) (v : Nat) : (s.setAcc v).joy2 = s.joy2 := rfl
@[simp] theorem State.setAcc_sys (s : State) (v : Nat) : (s.setAcc v).sys = s.sys := rfl
@[simp] theorem State.setAcc_dip1 (s : State) (v : Nat) : (s.setAcc v).dip1 = s.dip1 := rfl
@[simp] theorem State.setAcc_dip2 (s : State) (v : Nat) : (s.setAcc v).dip2 = s.dip2 := rfl
@[simp] theorem State.setAcc_imask (s : State) (v : Nat) : (s.setAcc v).imask = s.imask := rfl
@[simp] theorem State.setAcc_acc (s : State) (v : Nat) : (s.setAcc v).acc = v := rfl
@[simp] theorem State.setAcc_pal (s : State) (v : Nat) : (s.setAcc v).pal = s.pal := rfl
@[simp] theorem State.setAcc_ram (s : State) (v : Nat) : (s.setAcc v).ram = s.ram := rfl
@[simp] theorem State.setAcc_sndRam (s : State) (v : Nat) : (s.setAcc v).sndRam = s.sndRam := rfl
@[simp] theorem State.setAcc_fb (s : State) (v : Nat) : (s.setAcc v).fb = s.fb := rfl
@[simp] theorem State.setAcc_fbValid (s : State) (v : Nat) : (s.setAcc v).fbValid = s.fbValid := rfl
@[simp] theorem State.setAcc_fbDraw (s : State) (v : Nat) : (s.setAcc v).fbDraw = s.fbDraw := rfl
@[simp] theorem State.setAcc_response (s : State) (v : Nat) : (s.setAcc v).response = s.response := rfl
@[simp] theorem State.setAcc_pending (s : State) (v : Nat) : (s.setAcc v).pending = s.pending := rfl

/-! ## `setPal` -/

@[simp] theorem State.setPal_cfg (s : State) (v : Cells Color) : (s.setPal v).cfg = s.cfg := rfl
@[simp] theorem State.setPal_joy1 (s : State) (v : Cells Color) : (s.setPal v).joy1 = s.joy1 := rfl
@[simp] theorem State.setPal_joy2 (s : State) (v : Cells Color) : (s.setPal v).joy2 = s.joy2 := rfl
@[simp] theorem State.setPal_sys (s : State) (v : Cells Color) : (s.setPal v).sys = s.sys := rfl
@[simp] theorem State.setPal_dip1 (s : State) (v : Cells Color) : (s.setPal v).dip1 = s.dip1 := rfl
@[simp] theorem State.setPal_dip2 (s : State) (v : Cells Color) : (s.setPal v).dip2 = s.dip2 := rfl
@[simp] theorem State.setPal_imask (s : State) (v : Cells Color) : (s.setPal v).imask = s.imask := rfl
@[simp] theorem State.setPal_acc (s : State) (v : Cells Color) : (s.setPal v).acc = s.acc := rfl
@[simp] theorem State.setPal_pal (s : State) (v : Cells Color) : (s.setPal v).pal = v := rfl
@[simp] theorem State.setPal_ram (s : State) (v : Cells Color) : (s.setPal v).ram = s.ram := rfl
@[simp] theorem State.setPal_sndRam (s : State) (v : Cells Color) : (s.setPal v).sndRam = s.sndRam := rfl
@[simp] theorem State.setPal_fb (s : State) (v : Cells Color) : (s.setPal v).fb = s.fb := rfl
@[simp] theorem State.setPal_fbValid (s : State) (v : Cells Color) : (s.setPal v).fbValid = s.fbValid := rfl
@[simp] theorem State.setPal_fbDraw (s : State) (v : Cells Color) : (s.setPal v).fbDraw = s.fbDraw := rfl
@[simp] theorem State.setPal_response (s : State) (v : Cells Color) : (s.setPal v).response = s.response := rfl
@[simp] theorem State.setPal_pending (s : State) (v : Cells Color) : (s.setPal v).pending = s.pending := rfl

/-! ## `setRam` -/

@[simp] theorem State.setRam_cfg (s : State) (v : List Host.Cell) : (s.setRam v).cfg = s.cfg := rfl
@[simp] theorem State.setRam_joy1 (s : State) (v : List Host.Cell) : (s.setRam v).joy1 = s.joy1 := rfl
@[simp] theorem State.setRam_joy2 (s : State) (v : List Host.Cell) : (s.setRam v).joy2 = s.joy2 := rfl
@[simp] theorem State.setRam_sys (s : State) (v : List Host.Cell) : (s.setRam v).sys = s.sys := rfl
@[simp] theorem State.setRam_dip1 (s : State) (v : List Host.Cell) : (s.setRam v).dip1 = s.dip1 := rfl
@[simp] theorem State.setRam_dip2 (s : State) (v : List Host.Cell) : (s.setRam v).dip2 = s.dip2 := rfl
@[simp] theorem State.setRam_imask (s : State) (v : List Host.Cell) : (s.setRam v).imask = s.imask := rfl
@[simp] theorem State.setRam_acc (s : State) (v : List Host.Cell) : (s.setRam v).acc = s.acc := rfl
@[simp] theorem State.setRam_pal (s : State) (v : List Host.Cell) : (s.setRam v).pal = s.pal := rfl
@[simp] theorem State.setRam_ram (s : State) (v : List Host.Cell) : (s.setRam v).ram = v := rfl
@[simp] theorem State.setRam_sndRam (s : State) (v : List Host.Cell) : (s.setRam v).sndRam = s.sndRam := rfl
@[simp] theorem State.setRam_fb (s : State) (v : List Host.Cell) : (s.setRam v).fb = s.fb := rfl
@[simp] theorem State.setRam_fbValid (s : State) (v : List Host.Cell) : (s.setRam v).fbValid = s.fbValid := rfl
@[simp] theorem State.setRam_fbDraw (s : State) (v : List Host.Cell) : (s.setRam v).fbDraw = s.fbDraw := rfl
@[simp] theorem State.setRam_response (s : State) (v : List Host.Cell) : (s.setRam v).response = s.response := rfl
@[simp] theorem State.setRam_pending (s : State) (v : List Host.Cell) : (s.setRam v).pending = s.pending := rfl

/-! ## `setFb` -/

@[simp] theorem State.setFb_cfg (s : State) (v : Cells Color) : (s.setFb v).cfg = s.cfg := rfl
@[simp] theorem State.setFb_joy1 (s : State) (v : Cells Color) : (s.setFb v).joy1 = s.joy1 := rfl
@[simp] theorem State.setFb_joy2 (s : State) (v : Cells Color) : (s.setFb v).joy2 = s.joy2 := rfl
@[simp] theorem State.setFb_sys (s : State) (v : Cells Color) : (s.setFb v).sys = s.sys := rfl
@[simp] theorem State.setFb_dip1 (s : State) (v : Cells Color) : (s.setFb v).dip1 = s.dip1 := rfl
@[simp] theorem State.setFb_dip2 (s : State) (v : Cells Color) : (s.setFb v).dip2 = s.dip2 := rfl
@[simp] theorem State.setFb_imask (s : State) (v : Cells Color) : (s.setFb v).imask = s.imask := rfl
@[simp] theorem State.setFb_acc (s : State) (v : Cells Color) : (s.setFb v).acc = s.acc := rfl
@[simp] theorem State.setFb_pal (s : State) (v : Cells Color) : (s.setFb v).pal = s.pal := rfl
@[simp] theorem State.setFb_ram (s : State) (v : Cells Color) : (s.setFb v).ram = s.ram := rfl
@[simp] theorem State.setFb_sndRam (s : State) (v : Cells Color) : (s.setFb v).sndRam = s.sndRam := rfl
@[simp] theorem State.setFb_fb (s : State) (v : Cells Color) : (s.setFb v).fb = v := rfl
@[simp] theorem State.setFb_fbValid (s : State) (v : Cells Color) : (s.setFb v).fbValid = s.fbValid := rfl
@[simp] theorem State.setFb_fbDraw (s : State) (v : Cells Color) : (s.setFb v).fbDraw = s.fbDraw := rfl
@[simp] theorem State.setFb_response (s : State) (v : Cells Color) : (s.setFb v).response = s.response := rfl
@[simp] theorem State.setFb_pending (s : State) (v : Cells Color) : (s.setFb v).pending = s.pending := rfl

/-! ## `setFbValid` -/

@[simp] theorem State.setFbValid_cfg (s : State) (v : Bool) : (s.setFbValid v).cfg = s.cfg := rfl
@[simp] theorem State.setFbValid_joy1 (s : State) (v : Bool) : (s.setFbValid v).joy1 = s.joy1 := rfl
@[simp] theorem State.setFbValid_joy2 (s : State) (v : Bool) : (s.setFbValid v).joy2 = s.joy2 := rfl
@[simp] theorem State.setFbValid_sys (s : State) (v : Bool) : (s.setFbValid v).sys = s.sys := rfl
@[simp] theorem State.setFbValid_dip1 (s : State) (v : Bool) : (s.setFbValid v).dip1 = s.dip1 := rfl
@[simp] theorem State.setFbValid_dip2 (s : State) (v : Bool) : (s.setFbValid v).dip2 = s.dip2 := rfl
@[simp] theorem State.setFbValid_imask (s : State) (v : Bool) : (s.setFbValid v).imask = s.imask := rfl
@[simp] theorem State.setFbValid_acc (s : State) (v : Bool) : (s.setFbValid v).acc = s.acc := rfl
@[simp] theorem State.setFbValid_pal (s : State) (v : Bool) : (s.setFbValid v).pal = s.pal := rfl
@[simp] theorem State.setFbValid_ram (s : State) (v : Bool) : (s.setFbValid v).ram = s.ram := rfl
@[simp] theorem State.setFbValid_sndRam (s : State) (v : Bool) : (s.setFbValid v).sndRam = s.sndRam := rfl
@[simp] theorem State.setFbValid_fb (s : State) (v : Bool) : (s.setFbValid v).fb = s.fb := rfl
@[simp] theorem State.setFbValid_fbValid (s : State) (v : Bool) : (s.setFbValid v).fbValid = v := rfl
@[simp] theorem State.setFbValid_fbDraw (s : State) (v : Bool) : (s.setFbValid v).fbDraw = s.fbDraw := rfl
@[simp] theorem State.setFbValid_response (s : State) (v : Bool) : (s.setFbValid v).response = s.response := rfl
@[simp] theorem State.setFbValid_pending (s : State) (v : Bool) : (s.setFbValid v).pending = s.pending := rfl

/-! ## `setResponse` -/

@[simp] theorem State.setResponse_cfg (s : State) (v : Option Response) : (s.setResponse v).cfg = s.cfg := rfl
@[simp] theorem State.setResponse_joy1 (s : State) (v : Option Response) : (s.setResponse v).joy1 = s.joy1 := rfl
@[simp] theorem State.setResponse_joy2 (s : State) (v : Option Response) : (s.setResponse v).joy2 = s.joy2 := rfl
@[simp] theorem State.setResponse_sys (s : State) (v : Option Response) : (s.setResponse v).sys = s.sys := rfl
@[simp] theorem State.setResponse_dip1 (s : State) (v : Option Response) : (s.setResponse v).dip1 = s.dip1 := rfl
@[simp] theorem State.setResponse_dip2 (s : State) (v : Option Response) : (s.setResponse v).dip2 = s.dip2 := rfl
@[simp] theorem State.setResponse_imask (s : State) (v : Option Response) : (s.setResponse v).imask = s.imask := rfl
@[simp] theorem State.setResponse_acc (s : State) (v : Option Response) : (s.setResponse v).acc = s.acc := rfl
@[simp] theorem State.setResponse_pal (s : State) (v : Option Response) : (s.setResponse v).pal = s.pal := rfl
@[simp] theorem State.setResponse_ram (s : State) (v : Option Response) : (s.setResponse v).ram = s.ram := rfl
@[simp] theorem State.setResponse_sndRam (s : State) (v : Option Response) : (s.setResponse v).sndRam = s.sndRam := rfl
@[simp] theorem State.setResponse_fb (s : State) (v : Option Response) : (s.setResponse v).fb = s.fb := rfl
@[simp] theorem State.setResponse_fbValid (s : State) (v : Option Response) : (s.setResponse v).fbValid = s.fbValid := rfl
@[simp] theorem State.setResponse_fbDraw (s : State) (v : Option Response) : (s.setResponse v).fbDraw = s.fbDraw := rfl
@[simp] theorem State.setResponse_response (s : State) (v : Option Response) : (s.setResponse v).response = v := rfl
@[simp] theorem State.setResponse_pending (s : State) (v : Option Response) : (s.setResponse v).pending = s.pending := rfl

/-! ## `setPending` -/

@[simp] theorem State.setPending_cfg (s : State) (v : List StimulusWord) : (s.setPending v).cfg = s.cfg := rfl
@[simp] theorem State.setPending_joy1 (s : State) (v : List StimulusWord) : (s.setPending v).joy1 = s.joy1 := rfl
@[simp] theorem State.setPending_joy2 (s : State) (v : List StimulusWord) : (s.setPending v).joy2 = s.joy2 := rfl
@[simp] theorem State.setPending_sys (s : State) (v : List StimulusWord) : (s.setPending v).sys = s.sys := rfl
@[simp] theorem State.setPending_dip1 (s : State) (v : List StimulusWord) : (s.setPending v).dip1 = s.dip1 := rfl
@[simp] theorem State.setPending_dip2 (s : State) (v : List StimulusWord) : (s.setPending v).dip2 = s.dip2 := rfl
@[simp] theorem State.setPending_imask (s : State) (v : List StimulusWord) : (s.setPending v).imask = s.imask := rfl
@[simp] theorem State.setPending_acc (s : State) (v : List StimulusWord) : (s.setPending v).acc = s.acc := rfl
@[simp] theorem State.setPending_pal (s : State) (v : List StimulusWord) : (s.setPending v).pal = s.pal := rfl
@[simp] theorem State.setPending_ram (s : State) (v : List StimulusWord) : (s.setPending v).ram = s.ram := rfl
@[simp] theorem State.setPending_sndRam (s : State) (v : List StimulusWord) : (s.setPending v).sndRam = s.sndRam := rfl
@[simp] theorem State.setPending_fb (s : State) (v : List StimulusWord) : (s.setPending v).fb = s.fb := rfl
@[simp] theorem State.setPending_fbValid (s : State) (v : List StimulusWord) : (s.setPending v).fbValid = s.fbValid := rfl
@[simp] theorem State.setPending_fbDraw (s : State) (v : List StimulusWord) : (s.setPending v).fbDraw = s.fbDraw := rfl
@[simp] theorem State.setPending_response (s : State) (v : List StimulusWord) : (s.setPending v).response = s.response := rfl
@[simp] theorem State.setPending_pending (s : State) (v : List StimulusWord) : (s.setPending v).pending = v := rfl

end Sys2Proof.Machine
end

