-- ==== Sys2Proof/Laws/Ops.lean ====
section
/-!
SUPPORT. For each shared operation one lemma that says what it can do.
-/

namespace Sys2Proof.Machine

/-! ## Arrays -/

theorem ramAt_ramPut (s : State) (i j : Nat) (v : Byte) : ramAt (ramPut s i v) j = if j = i then v else ramAt s j := by
  simp [ramAt, ramPut, readCell_writeCell]

theorem palAt_palPut (s : State) (i j : Nat) (c : Color) : palAt (palPut s i c) j = if j = i then c else palAt s j := by
  simp [palAt, palPut, readCell_writeCell]

@[simp] theorem ramAt_palPut (s : State) (i j : Nat) (c : Color) : ramAt (palPut s i c) j = ramAt s j := rfl
@[simp] theorem palAt_ramPut (s : State) (i j : Nat) (v : Byte) : palAt (ramPut s i v) j = palAt s j := rfl
@[simp] theorem ramAt_setAcc (s : State) (n i : Nat) : ramAt (s.setAcc n) i = ramAt s i := rfl
@[simp] theorem palAt_setAcc (s : State) (n i : Nat) : palAt (s.setAcc n) i = palAt s i := rfl
@[simp] theorem ramAt_setResponse (s : State) (r : Option Response) (i : Nat) : ramAt (s.setResponse r) i = ramAt s i := rfl
@[simp] theorem palAt_setResponse (s : State) (r : Option Response) (i : Nat) : palAt (s.setResponse r) i = palAt s i := rfl

/-- R29: a valid framebuffer reads as its cells say. -/
theorem sample_of_valid (s : State) (i : Nat) (h : s.fbValid = true) : sample s i = readCell s.cfg.bgFill s.fb i := by
  simp [sample, h]

/-! ## Derived operands -/

theorem ramIdx_lt (a : Nat) : ramIdx a < 8192 := Nat.mod_lt _ (by decide)

theorem ramIdx_of_inRange {a : Nat} (_h1 : 0x8000 ≤ a) (h2 : a ≤ 0x9FFF) : ramIdx a = a - 0x8000 :=
  Nat.mod_eq_of_lt (by omega)

theorem palIdx_lt {a : Addr} (h : a.isPalette = true) : palIdx a < 128 := by
  simp only [Addr.isPalette, Bool.and_eq_true, decide_eq_true_eq] at h
  unfold palIdx; omega

theorem penEntry_eq (cn : BitVec 4) (p : BitVec 3) : penEntry cn p = cn.toNat * 8 + p.toNat :=
  Nat.mod_eq_of_lt (by have := cn.isLt; have := p.isLt; omega)

theorem penEntry_lt (cn : BitVec 4) (p : BitVec 3) : penEntry cn p < 128 := Nat.mod_lt _ (by decide)

/-! ## The resolver -/

theorem memRead_romLow (s : State) {a : Addr} (h : a.isRomLow = true) :
    memRead s a = readCell romDefault s.cfg.progRomLo.cells a.toNat := by
  simp only [Addr.isRomLow, decide_eq_true_eq] at h
  simp [memRead, h]

theorem memRead_ram (s : State) {a : Addr} (h1 : 0x8000 ≤ a.toNat) (h2 : a.toNat ≤ 0x9FFF) :
    memRead s a = ramAt s (a.toNat - 0x8000) := by
  have h3 : ¬ a.toNat ≤ 0x7FFF := by omega
  simp [memRead, h1, h2, h3, ramIdx_of_inRange]

theorem memRead_romHigh (s : State) {a : Addr} (h : a.isRomHigh = true) :
    memRead s a = readCell romDefault s.cfg.progRomHi.cells (a.toNat - 0xC000) := by
  simp only [Addr.isRomHigh, Bool.and_eq_true, decide_eq_true_eq] at h
  have h1 : ¬ a.toNat ≤ 0x7FFF := by omega
  have h2 : ¬ a.toNat ≤ 0x9FFF := by omega
  have h3 : (a.toNat - 0xC000) % 8192 = a.toNat - 0xC000 := Nat.mod_eq_of_lt (by omega)
  simp [memRead, h, h1, h2, h3]

theorem memRead_unmapped (s : State) {a : Addr} (h : a.isUnmapped = true) : memRead s a = s.cfg.unmappedRead := by
  simp only [Addr.isUnmapped, Bool.or_eq_true, Bool.and_eq_true, decide_eq_true_eq] at h
  have h1 : ¬ a.toNat ≤ 0x7FFF := by omega
  have h2 : ¬ (0x8000 ≤ a.toNat ∧ a.toNat ≤ 0x9FFF) := by omega
  have h3 : ¬ (0xC000 ≤ a.toNat ∧ a.toNat ≤ 0xDFFF) := by omega
  simp only [memRead, h1, h2, h3, if_false]

/-- R43: outside the RAM region a write changes nothing. -/
theorem memWrite_outside (s : State) {a : Addr} (v : Byte) (h : ¬ (0x8000 ≤ a.toNat ∧ a.toNat ≤ 0x9FFF)) :
    memWrite s a v = s := if_neg h

/-- R43: inside the RAM region a write stores the byte. -/
theorem memWrite_ram (s : State) {a : Addr} (v : Byte) (h1 : 0x8000 ≤ a.toNat) (h2 : a.toNat ≤ 0x9FFF) :
    memWrite s a v = ramPut s (a.toNat - 0x8000) v := by
  simp [memWrite, h1, h2, ramIdx_of_inRange]

/-! ## The timing step and the skeletons -/

theorem interruptRequest_eq (s : State) (cyc : Cycles) :
    interruptRequest (wraps s.cfg.period (s.acc + cyc.toNat)) s.imask = intOf s cyc := by
  simp [interruptRequest, wraps, intOf, bne, Bool.decide_and]; rfl

/-- R119: what the timing step does. -/
theorem advance_eq (s : State) (cyc : Cycles) : advance cyc.toNat s = (intOf s cyc, s.setAcc (accAfter s cyc)) := by
  simp [advance, interruptRequest_eq, accAfter]

/-- R76: what a read does. -/
theorem busRead_eq (cyc : Cycles) (io : Bool) (a : Addr) (supply : State → Byte) (s : State) :
    busRead cyc io a supply s =
      (s.setAcc (accAfter s cyc)).setResponse (readReply s cyc io a (supply (s.setAcc (accAfter s cyc)))) := by
  simp [busRead, busTxn, advance_eq, readReply]

/-- R76: what a write does. -/
theorem busWrite_eq (cyc : Cycles) (io : Bool) (a : Addr) (d : Byte) (effect : State → State) (s : State) :
    busWrite cyc io a d effect s = (effect (s.setAcc (accAfter s cyc))).setResponse (writeReply s cyc io a d) := by
  simp [busWrite, busTxn, advance_eq, writeReply]

/-- R78: what an idle cycle group does. -/
theorem busIdle_eq (cyc : Cycles) (io : Bool) (a : Addr) (d : Byte) (s : State) :
    busIdle cyc io a d s = (s.setAcc (accAfter s cyc)).setResponse
      (some { board := .main, int := intOf s cyc, io := io, wr := false, rd := false, dout := d, a := a }) := by
  simp [busIdle, busTxn, advance_eq]

/-! ## The stimuli that wait -/

theorem fetch_nil {s : State} (h : s.pending = []) : fetch s = none := by simp [fetch, h]

theorem fetch_cons {s : State} {w : StimulusWord} {ws : List StimulusWord} (h : s.pending = w :: ws) :
    fetch s = some (w, s.setPending ws) := by simp [fetch, h]

/-- Everything a step can do. -/
theorem step_cases (s : State) :
    (configWellFormed s.cfg = false ∧ step s = .refused .illFormedConfig) ∨
    (configWellFormed s.cfg = true ∧ s.pending = [] ∧ step s = .next s) ∨
    (configWellFormed s.cfg = true ∧ ∃ w ws, s.pending = w :: ws ∧ step s = handle w (s.setPending ws)) := by
  cases hc : configWellFormed s.cfg
  · exact .inl ⟨rfl, by simp [step, hc]⟩
  · cases hp : s.pending with
    | nil => exact .inr (.inl ⟨rfl, rfl, by simp [step, hc, fetch_nil hp]⟩)
    | cons w ws => exact .inr (.inr ⟨rfl, w, ws, rfl, by simp [step, hc, fetch_cons hp]⟩)

end Sys2Proof.Machine
end

