-- ==== Sys2Proof/Laws/PerInstr.lean ====
section
/-!
SUPPORT. Per instruction: the encoded word of a well-formed stimulus lies in its own row of the opcode map (R65).
-/

namespace Sys2Proof

/-! ## A packed word under a mask -/

/-- Masking a packed word masks its fields. -/
theorem packWord_and (cyc : Cycles) (k : BitVec 4) (io wr rd : Bool) (d : Byte) (a : Addr) (m : StimulusWord) :
    packWord cyc k io wr rd d a &&& m = packWord (cyc &&& fieldCyc m) (k &&& fieldKind m) (io && fieldIo m)
      (wr && fieldWr m) (rd && fieldRd m) (d &&& fieldD m) (a &&& fieldA m) := by
  apply BitVec.eq_of_getLsbD_eq
  intro i hi
  simp only [BitVec.getLsbD_and, getLsbD_packWord, fieldCyc, fieldKind, fieldIo, fieldWr, fieldRd, fieldD, fieldA,
    BitVec.getLsbD_extractLsb']
  repeat' split
  all_goals first
    | (subst_vars; rfl)
    | simp only [Bool.false_and]
    | (congr 1
       rw [decide_eq_true (by omega), Bool.true_and]
       congr 1
       omega)

/-! ## Address classes under the masks of the map -/

/-- The high byte of a palette-region address is 0x9C. -/
theorem high_of_isPalette {a : Addr} (h : a.isPalette = true) : a.extractLsb' 8 8 = 0x9C#8 := by
  simp only [Addr.isPalette, Bool.and_eq_true, decide_eq_true_eq] at h
  apply BitVec.eq_of_toNat_eq
  simp only [BitVec.extractLsb'_toNat, Nat.shiftRight_eq_div_pow, BitVec.toNat_ofNat]
  omega

theorem and_palette {a : Addr} (h : a.isPalette = true) : a &&& 0xFF00#16 = 0x9C00#16 := by
  have hb := high_of_isPalette h
  apply BitVec.eq_of_getLsbD_eq
  intro i hi
  rw [BitVec.getLsbD_and]
  by_cases h8 : i < 8
  · interval_cases i <;> simp
  · have hg := congrArg (fun b : BitVec 8 => b.getLsbD (i - 8)) hb
    simp only [BitVec.getLsbD_extractLsb', show i - 8 < 8 by omega, decide_true, Bool.true_and,
      show 8 + (i - 8) = i by omega] at hg
    rw [hg]
    interval_cases i <;> first | omega | rfl

theorem and_palette_parity {a : Addr} (h : a.isPalette = true) :
    a &&& 0xFF01#16 = if a.getLsbD 0 then 0x9C01#16 else 0x9C00#16 := by
  have hp := and_palette h
  have hs : a &&& 0xFF01#16 = (a &&& 0xFF00#16) ||| (a &&& 0x0001#16) := by
    rw [← BitVec.and_or_distrib_left]; rfl
  have h1 : a &&& 0x0001#16 = if a.getLsbD 0 then 0x0001#16 else 0x0000#16 := by
    apply BitVec.eq_of_getLsbD_eq
    intro i hi
    rw [BitVec.getLsbD_and]
    cases h0 : a.getLsbD 0
    all_goals
      have h0' := h0
      rw [BitVec.getLsbD_eq_getElem (by decide)] at h0'
      interval_cases i <;> simp [h0']
  rw [hs, hp, h1]
  split <;> rfl

/-- The top three bits of an address decide its class under the mask 0xE000. -/
theorem and_top3 {a : Addr} (t : BitVec 3) (h : a.toNat / 8192 = t.toNat) : a &&& 0xE000#16 = t ++ 0#13 := by
  have hb : a.extractLsb' 13 3 = t := by
    apply BitVec.eq_of_toNat_eq
    have := t.isLt
    simp only [BitVec.extractLsb'_toNat, Nat.shiftRight_eq_div_pow]
    omega
  apply BitVec.eq_of_getLsbD_eq
  intro i hi
  rw [BitVec.getLsbD_and, BitVec.getLsbD_append]
  by_cases h13 : i < 13
  · interval_cases i <;> simp
  · have hg := congrArg (fun b : BitVec 3 => b.getLsbD (i - 13)) hb
    simp only [BitVec.getLsbD_extractLsb', show i - 13 < 3 by omega, decide_true, Bool.true_and,
      show 13 + (i - 13) = i by omega] at hg
    rw [hg, if_neg h13]
    interval_cases i <;> first | omega | simp

theorem and_plainRam {a : Addr} (h : a.isPlainRam = true) : a &&& 0xE000#16 = 0x8000#16 := by
  simp only [Addr.isPlainRam, Bool.or_eq_true, Bool.and_eq_true, decide_eq_true_eq] at h
  exact and_top3 4#3 (by show a.toNat / 8192 = 4; omega)

theorem and_romHigh {a : Addr} (h : a.isRomHigh = true) : a &&& 0xE000#16 = 0xC000#16 := by
  simp only [Addr.isRomHigh, Bool.and_eq_true, decide_eq_true_eq] at h
  exact and_top3 6#3 (by show a.toNat / 8192 = 6; omega)

theorem and_romLow {a : Addr} (h : a.isRomLow = true) : a &&& 0x8000#16 = 0x0000#16 := by
  simp only [Addr.isRomLow, decide_eq_true_eq] at h
  have h15 : a[15] = false := by
    rw [← BitVec.getLsbD_eq_getElem, BitVec.getLsbD, Nat.testBit_lt_two_pow (by omega)]
  apply BitVec.eq_of_getLsbD_eq
  intro i hi
  rw [BitVec.getLsbD_and]
  interval_cases i <;> simp [h15]

end Sys2Proof

namespace Sys2Proof.Laws.EncodedInRow

/-- Row `i.row` of the opcode map holds the word of `i`: `S &&& mask = pattern` (R65). -/
def Statement (i : Instr) : Prop :=
  i.wellFormed = true → ∃ r ∈ opcodeMap, r.priority = i.row ∧ encode i &&& r.mask = r.pattern

/-- A stimulus is in a row of the map when its word meets that row's mask and pattern. -/
theorem of_row {i : Instr} (r : OpcodeRow) (hm : r ∈ opcodeMap) (hp : r.priority = i.row)
    (h : encode i &&& r.mask = r.pattern) : Statement i := fun _ => ⟨r, hm, hp, h⟩

theorem mem_ports {r : OpcodeRow} (h : r ∈ opcodeRowsPorts) : r ∈ opcodeMap := by simp [opcodeMap, h]
theorem mem_resolver {r : OpcodeRow} (h : r ∈ opcodeRowsResolver) : r ∈ opcodeMap := by simp [opcodeMap, h]
theorem mem_host {r : OpcodeRow} (h : r ∈ opcodeRowsHost) : r ∈ opcodeMap := by simp [opcodeMap, h]

/-- A `TXN` or `SNDTXN` word under a mask that leaves out the cycle count and the data line. -/
theorem bus_masked {cyc : Cycles} {k : BitVec 4} {io wr rd : Bool} {d : Byte} {a : Addr} (m p : StimulusWord)
    (io' : Bool) (a' : Addr) (hm : fieldCyc m = 0#32 ∧ fieldKind m = 15#4 ∧ fieldWr m = true ∧ fieldRd m = true ∧ fieldD m = 0#8)
    (hio : (io && fieldIo m) = io') (ha : a &&& fieldA m = a') (hp : packWord 0#32 k io' wr rd 0#8 a' = p) :
    packWord cyc k io wr rd d a &&& m = p := by
  obtain ⟨h1, h2, h3, h4, h5⟩ := hm
  rw [packWord_and, h1, h2, h3, h4, h5, hio, ha, ← hp]
  rw [show (15#4 : BitVec 4) = BitVec.allOnes 4 from rfl, BitVec.and_allOnes, BitVec.and_zero, BitVec.and_zero,
    Bool.and_true, Bool.and_true]

/-- A `SETIN` word under the mask of its row. -/
theorem setin_masked (sel : BitVec 3) (v : Byte) :
    setinWord sel v &&& 0xFFFFFFFFFF00FFFF#64 = setinWord sel 0#8 := by
  have h1 : fieldCyc 0xFFFFFFFFFF00FFFF#64 = BitVec.allOnes 32 := by decide
  have h2 : fieldKind 0xFFFFFFFFFF00FFFF#64 = BitVec.allOnes 4 := by decide
  have h3 : fieldIo 0xFFFFFFFFFF00FFFF#64 = true := by decide
  have h4 : fieldWr 0xFFFFFFFFFF00FFFF#64 = true := by decide
  have h5 : fieldRd 0xFFFFFFFFFF00FFFF#64 = true := by decide
  have h6 : fieldD 0xFFFFFFFFFF00FFFF#64 = 0#8 := by decide
  have h7 : fieldA 0xFFFFFFFFFF00FFFF#64 = BitVec.allOnes 16 := by decide
  rw [setinWord, packWord_and, h1, h2, h3, h4, h5, h6, h7, setinWord]
  simp only [BitVec.and_allOnes, BitVec.and_zero, Bool.and_true]

theorem palRd (cyc : Cycles) (a : Addr) (d : Byte) : Statement (.palRd cyc a d) := fun h =>
  of_row ⟨1, "PAL.RD", 0x01009C00#64, 0xF700FF00#64⟩ (mem_ports (by simp [opcodeRowsPorts])) rfl (bus_masked 0xF700FF00#64 0x01009C00#64 false 0x9C00#16 (by decide)
    rfl (and_palette h) (by decide)) h

theorem palWrE (cyc : Cycles) (a : Addr) (d : Byte) : Statement (.palWrE cyc a d) := fun h => by
  have hw : a.isPalette = true ∧ a.getLsbD 0 = false := by simpa [Instr.wellFormed] using h
  have ha := and_palette_parity hw.1
  rw [hw.2] at ha
  exact of_row ⟨2, "PAL.WR.E", 0x02009C00#64, 0xF700FF01#64⟩ (mem_ports (by simp [opcodeRowsPorts])) rfl (bus_masked 0xF700FF01#64 0x02009C00#64 false 0x9C00#16 (by decide)
    rfl ha (by decide)) h

theorem palWrO (cyc : Cycles) (a : Addr) (d : Byte) : Statement (.palWrO cyc a d) := fun h => by
  have hw : a.isPalette = true ∧ a.getLsbD 0 = true := by simpa [Instr.wellFormed] using h
  have ha := and_palette_parity hw.1
  rw [hw.2] at ha
  exact of_row ⟨3, "PAL.WR.O", 0x02009C01#64, 0xF700FF01#64⟩ (mem_ports (by simp [opcodeRowsPorts])) rfl (bus_masked 0xF700FF01#64 0x02009C01#64 false 0x9C01#16 (by decide)
    rfl ha (by decide)) h

theorem joy1Rd (cyc : Cycles) (d : Byte) : Statement (.joy1Rd cyc d) :=
  of_row ⟨4, "JOY1.RD", 0x0100B000#64, 0xF700FFFF#64⟩ (mem_ports (by simp [opcodeRowsPorts])) rfl (bus_masked 0xF700FFFF#64 0x0100B000#64 false 0xB000#16 (by decide)
    (by decide) (by decide) (by decide))

theorem imaskWr (cyc : Cycles) (d : Byte) : Statement (.imaskWr cyc d) :=
  of_row ⟨5, "IMASK.WR", 0x0200B000#64, 0xF700FFFF#64⟩ (mem_ports (by simp [opcodeRowsPorts])) rfl (bus_masked 0xF700FFFF#64 0x0200B000#64 false 0xB000#16 (by decide)
    (by decide) (by decide) (by decide))

theorem joy2Rd (cyc : Cycles) (d : Byte) : Statement (.joy2Rd cyc d) :=
  of_row ⟨6, "JOY2.RD", 0x0100B001#64, 0xF700FFFF#64⟩ (mem_ports (by simp [opcodeRowsPorts])) rfl (bus_masked 0xF700FFFF#64 0x0100B001#64 false 0xB001#16 (by decide)
    (by decide) (by decide) (by decide))

theorem b001Wr (cyc : Cycles) (d : Byte) : Statement (.b001Wr cyc d) :=
  of_row ⟨7, "B001.WR", 0x0200B001#64, 0xF700FFFF#64⟩ (mem_ports (by simp [opcodeRowsPorts])) rfl (bus_masked 0xF700FFFF#64 0x0200B001#64 false 0xB001#16 (by decide)
    (by decide) (by decide) (by decide))

theorem sysRd (cyc : Cycles) (d : Byte) : Statement (.sysRd cyc d) :=
  of_row ⟨8, "SYS.RD", 0x0100B002#64, 0xF700FFFF#64⟩ (mem_ports (by simp [opcodeRowsPorts])) rfl (bus_masked 0xF700FFFF#64 0x0100B002#64 false 0xB002#16 (by decide)
    (by decide) (by decide) (by decide))

theorem b002Wr (cyc : Cycles) (d : Byte) : Statement (.b002Wr cyc d) :=
  of_row ⟨9, "B002.WR", 0x0200B002#64, 0xF700FFFF#64⟩ (mem_ports (by simp [opcodeRowsPorts])) rfl (bus_masked 0xF700FFFF#64 0x0200B002#64 false 0xB002#16 (by decide)
    (by decide) (by decide) (by decide))

theorem b003Rd (cyc : Cycles) (d : Byte) : Statement (.b003Rd cyc d) :=
  of_row ⟨10, "B003.RD", 0x0100B003#64, 0xF700FFFF#64⟩ (mem_ports (by simp [opcodeRowsPorts])) rfl (bus_masked 0xF700FFFF#64 0x0100B003#64 false 0xB003#16 (by decide)
    (by decide) (by decide) (by decide))

theorem b003Wr (cyc : Cycles) (d : Byte) : Statement (.b003Wr cyc d) :=
  of_row ⟨11, "B003.WR", 0x0200B003#64, 0xF700FFFF#64⟩ (mem_ports (by simp [opcodeRowsPorts])) rfl (bus_masked 0xF700FFFF#64 0x0200B003#64 false 0xB003#16 (by decide)
    (by decide) (by decide) (by decide))

theorem dip1Rd (cyc : Cycles) (d : Byte) : Statement (.dip1Rd cyc d) :=
  of_row ⟨12, "DIP1.RD", 0x0100B004#64, 0xF700FFFF#64⟩ (mem_ports (by simp [opcodeRowsPorts])) rfl (bus_masked 0xF700FFFF#64 0x0100B004#64 false 0xB004#16 (by decide)
    (by decide) (by decide) (by decide))

theorem flipWr (cyc : Cycles) (d : Byte) : Statement (.flipWr cyc d) :=
  of_row ⟨13, "FLIP.WR", 0x0200B004#64, 0xF700FFFF#64⟩ (mem_ports (by simp [opcodeRowsPorts])) rfl (bus_masked 0xF700FFFF#64 0x0200B004#64 false 0xB004#16 (by decide)
    (by decide) (by decide) (by decide))

theorem dip2Rd (cyc : Cycles) (d : Byte) : Statement (.dip2Rd cyc d) :=
  of_row ⟨14, "DIP2.RD", 0x0100B005#64, 0xF700FFFF#64⟩ (mem_ports (by simp [opcodeRowsPorts])) rfl (bus_masked 0xF700FFFF#64 0x0100B005#64 false 0xB005#16 (by decide)
    (by decide) (by decide) (by decide))

theorem b005Wr (cyc : Cycles) (d : Byte) : Statement (.b005Wr cyc d) :=
  of_row ⟨15, "B005.WR", 0x0200B005#64, 0xF700FFFF#64⟩ (mem_ports (by simp [opcodeRowsPorts])) rfl (bus_masked 0xF700FFFF#64 0x0200B005#64 false 0xB005#16 (by decide)
    (by decide) (by decide) (by decide))

theorem slatchRd (cyc : Cycles) (d : Byte) : Statement (.slatchRd cyc d) :=
  of_row ⟨16, "SLATCH.RD", 0x0100B800#64, 0xF700FFFF#64⟩ (mem_ports (by simp [opcodeRowsPorts])) rfl (bus_masked 0xF700FFFF#64 0x0100B800#64 false 0xB800#16 (by decide)
    (by decide) (by decide) (by decide))

theorem slatchWr (cyc : Cycles) (d : Byte) : Statement (.slatchWr cyc d) :=
  of_row ⟨17, "SLATCH.WR", 0x0200B800#64, 0xF700FFFF#64⟩ (mem_ports (by simp [opcodeRowsPorts])) rfl (bus_masked 0xF700FFFF#64 0x0200B800#64 false 0xB800#16 (by decide)
    (by decide) (by decide) (by decide))

theorem romlRd (cyc : Cycles) (a : Addr) (d : Byte) : Statement (.romlRd cyc a d) := fun h =>
  of_row ⟨18, "ROML.RD", 0x01000000#64, 0xF7008000#64⟩ (mem_resolver (by simp [opcodeRowsResolver])) rfl (bus_masked 0xF7008000#64 0x01000000#64 false 0x0000#16 (by decide)
    rfl (and_romLow h) (by decide)) h

theorem romhRd (cyc : Cycles) (a : Addr) (d : Byte) : Statement (.romhRd cyc a d) := fun h =>
  of_row ⟨19, "ROMH.RD", 0x0100C000#64, 0xF700E000#64⟩ (mem_resolver (by simp [opcodeRowsResolver])) rfl (bus_masked 0xF700E000#64 0x0100C000#64 false 0xC000#16 (by decide)
    rfl (and_romHigh h) (by decide)) h

theorem romlWr (cyc : Cycles) (a : Addr) (d : Byte) : Statement (.romlWr cyc a d) := fun h =>
  of_row ⟨20, "ROML.WR", 0x02000000#64, 0xF7008000#64⟩ (mem_resolver (by simp [opcodeRowsResolver])) rfl (bus_masked 0xF7008000#64 0x02000000#64 false 0x0000#16 (by decide)
    rfl (and_romLow h) (by decide)) h

theorem romhWr (cyc : Cycles) (a : Addr) (d : Byte) : Statement (.romhWr cyc a d) := fun h =>
  of_row ⟨21, "ROMH.WR", 0x0200C000#64, 0xF700E000#64⟩ (mem_resolver (by simp [opcodeRowsResolver])) rfl (bus_masked 0xF700E000#64 0x0200C000#64 false 0xC000#16 (by decide)
    rfl (and_romHigh h) (by decide)) h

theorem ramRd (cyc : Cycles) (a : Addr) (d : Byte) : Statement (.ramRd cyc a d) := fun h =>
  of_row ⟨22, "RAM.RD", 0x01008000#64, 0xF700E000#64⟩ (mem_resolver (by simp [opcodeRowsResolver])) rfl (bus_masked 0xF700E000#64 0x01008000#64 false 0x8000#16 (by decide)
    rfl (and_plainRam h) (by decide)) h

theorem ramWr (cyc : Cycles) (a : Addr) (d : Byte) : Statement (.ramWr cyc a d) := fun h =>
  of_row ⟨23, "RAM.WR", 0x02008000#64, 0xF700E000#64⟩ (mem_resolver (by simp [opcodeRowsResolver])) rfl (bus_masked 0xF700E000#64 0x02008000#64 false 0x8000#16 (by decide)
    rfl (and_plainRam h) (by decide)) h

theorem unmapRd (cyc : Cycles) (a : Addr) (d : Byte) : Statement (.unmapRd cyc a d) :=
  of_row ⟨24, "UNMAP.RD", 0x01000000#64, 0xF7000000#64⟩ (mem_resolver (by simp [opcodeRowsResolver])) rfl (bus_masked 0xF7000000#64 0x01000000#64 false 0x0000#16 (by decide)
    (by decide) BitVec.and_zero (by decide))

theorem unmapWr (cyc : Cycles) (a : Addr) (d : Byte) : Statement (.unmapWr cyc a d) :=
  of_row ⟨25, "UNMAP.WR", 0x02000000#64, 0xF7000000#64⟩ (mem_resolver (by simp [opcodeRowsResolver])) rfl (bus_masked 0xF7000000#64 0x02000000#64 false 0x0000#16 (by decide)
    (by decide) BitVec.and_zero (by decide))

theorem ioRd (cyc : Cycles) (a : Addr) (d : Byte) : Statement (.ioRd cyc a d) :=
  of_row ⟨26, "IO.RD", 0x05000000#64, 0xF7000000#64⟩ (mem_resolver (by simp [opcodeRowsResolver])) rfl (bus_masked 0xF7000000#64 0x05000000#64 true 0x0000#16 (by decide)
    (by decide) BitVec.and_zero (by decide))

theorem ioWr (cyc : Cycles) (a : Addr) (d : Byte) : Statement (.ioWr cyc a d) :=
  of_row ⟨27, "IO.WR", 0x06000000#64, 0xF7000000#64⟩ (mem_resolver (by simp [opcodeRowsResolver])) rfl (bus_masked 0xF7000000#64 0x06000000#64 true 0x0000#16 (by decide)
    (by decide) BitVec.and_zero (by decide))

theorem idle (cyc : Cycles) (io : Bool) (a : Addr) (d : Byte) : Statement (.idle cyc io a d) :=
  of_row ⟨28, "IDLE", 0x00000000#64, 0xF3000000#64⟩ (mem_resolver (by simp [opcodeRowsResolver])) rfl (bus_masked 0xF3000000#64 0x00000000#64 false 0x0000#16 (by decide)
    (by cases io <;> decide) BitVec.and_zero (by decide))

theorem rsvdRdwr (cyc : Cycles) (io : Bool) (a : Addr) (d : Byte) : Statement (.rsvdRdwr cyc io a d) :=
  of_row ⟨29, "RSVD.RDWR", 0x03000000#64, 0xF3000000#64⟩ (mem_resolver (by simp [opcodeRowsResolver])) rfl (bus_masked 0xF3000000#64 0x03000000#64 false 0x0000#16 (by decide)
    (by cases io <;> decide) BitVec.and_zero (by decide))

theorem sndRd (cyc : Cycles) (io : Bool) (a : Addr) (d : Byte) : Statement (.sndRd cyc io a d) :=
  of_row ⟨30, "SND.RD", 0x41000000#64, 0xF3000000#64⟩ (mem_host (by simp [opcodeRowsHost])) rfl (bus_masked 0xF3000000#64 0x41000000#64 false 0x0000#16 (by decide)
    (by cases io <;> decide) BitVec.and_zero (by decide))

theorem sndWr (cyc : Cycles) (io : Bool) (a : Addr) (d : Byte) : Statement (.sndWr cyc io a d) :=
  of_row ⟨31, "SND.WR", 0x42000000#64, 0xF3000000#64⟩ (mem_host (by simp [opcodeRowsHost])) rfl (bus_masked 0xF3000000#64 0x42000000#64 false 0x0000#16 (by decide)
    (by cases io <;> decide) BitVec.and_zero (by decide))

theorem sndIdle (cyc : Cycles) (io : Bool) (a : Addr) (d : Byte) : Statement (.sndIdle cyc io a d) :=
  of_row ⟨32, "SND.IDLE", 0x40000000#64, 0xF3000000#64⟩ (mem_host (by simp [opcodeRowsHost])) rfl (bus_masked 0xF3000000#64 0x40000000#64 false 0x0000#16 (by decide)
    (by cases io <;> decide) BitVec.and_zero (by decide))

theorem render : Statement .render :=
  of_row ⟨33, "RENDER", 0x10000000#64, 0xFFFFFFFFFFFFFFFF#64⟩ (mem_host (by simp [opcodeRowsHost])) rfl (by decide)

theorem setinJoy1 (v : Byte) : Statement (.setinJoy1 v) :=
  of_row ⟨34, "SETIN.JOY1", 0x20000000#64, 0xFFFFFFFFFF00FFFF#64⟩ (mem_host (by simp [opcodeRowsHost])) rfl ((setin_masked _ v).trans (by decide))

theorem setinJoy2 (v : Byte) : Statement (.setinJoy2 v) :=
  of_row ⟨35, "SETIN.JOY2", 0x20000001#64, 0xFFFFFFFFFF00FFFF#64⟩ (mem_host (by simp [opcodeRowsHost])) rfl ((setin_masked _ v).trans (by decide))

theorem setinSys (v : Byte) : Statement (.setinSys v) :=
  of_row ⟨36, "SETIN.SYS", 0x20000002#64, 0xFFFFFFFFFF00FFFF#64⟩ (mem_host (by simp [opcodeRowsHost])) rfl ((setin_masked _ v).trans (by decide))

theorem setinDip1 (v : Byte) : Statement (.setinDip1 v) :=
  of_row ⟨37, "SETIN.DIP1", 0x20000003#64, 0xFFFFFFFFFF00FFFF#64⟩ (mem_host (by simp [opcodeRowsHost])) rfl ((setin_masked _ v).trans (by decide))

theorem setinDip2 (v : Byte) : Statement (.setinDip2 v) :=
  of_row ⟨38, "SETIN.DIP2", 0x20000004#64, 0xFFFFFFFFFF00FFFF#64⟩ (mem_host (by simp [opcodeRowsHost])) rfl ((setin_masked _ v).trans (by decide))

theorem reset : Statement .reset :=
  of_row ⟨39, "RESET", 0x30000000#64, 0xFFFFFFFFFFFFFFFF#64⟩ (mem_host (by simp [opcodeRowsHost])) rfl (by decide)

end Sys2Proof.Laws.EncodedInRow
end

