-- ==== Sys2Proof/Laws/Video.lean ====
section
/-!
SUPPORT. What each loop of the pipeline can do, said once: a framebuffer index it reaches gets the value the index has,
every other keeps its value; and every loop keeps the canonical form.
-/

namespace Sys2Proof.Machine

/-- A loop whose body, at `x`, gives the indices in `P x` the value `g` and leaves the others alone. -/
theorem readCell_foldl {β : Type} (d : Color) (body : Cells Color → β → Cells Color) (P : β → Nat → Prop) (g : Nat → Color)
    (l : List β) (hP : ∀ x ∈ l, ∀ i fb, P x i → readCell d (body fb x) i = g i)
    (hN : ∀ x ∈ l, ∀ i fb, ¬ P x i → readCell d (body fb x) i = readCell d fb i) (fb : Cells Color) (i : Nat) :
    ((∃ x ∈ l, P x i) → readCell d (l.foldl body fb) i = g i) ∧
      ((∀ x ∈ l, ¬ P x i) → readCell d (l.foldl body fb) i = readCell d fb i) := by
  induction l generalizing fb with
  | nil => simp
  | cons x l ih =>
    obtain ⟨ihP, ihN⟩ := ih (fun y hy => hP y (by simp [hy])) (fun y hy => hN y (by simp [hy])) (body fb x)
    have hPx := hP x (by simp) i fb
    have hNx := hN x (by simp) i fb
    constructor
    · rintro ⟨y, hy, hPy⟩
      by_cases hl : ∃ z ∈ l, P z i
      · exact ihP hl
      · have hx : P x i := by
          rcases List.mem_cons.mp hy with rfl | hy
          · exact hPy
          · exact absurd ⟨y, hy, hPy⟩ hl
        rw [List.foldl_cons, ihN fun z hz hz' => hl ⟨z, hz, hz'⟩, hPx hx]
    · intro h
      rw [List.foldl_cons, ihN fun z hz => h z (by simp [hz]), hNx (h x (by simp))]

/-- A loop whose body keeps the canonical form keeps it. -/
theorem wf_foldl {β : Type} {d : Color} {n : Nat} (body : Cells Color → β → Cells Color) (l : List β)
    (h : ∀ x ∈ l, ∀ fb, Memory.wf d n fb → Memory.wf d n (body fb x)) (fb : Cells Color) (hfb : Memory.wf d n fb) :
    Memory.wf d n (l.foldl body fb) := by
  induction l generalizing fb with
  | nil => exact hfb
  | cons x l ih => exact ih (fun y hy => h y (by simp [hy])) _ (h x (by simp) fb hfb)

/-! ## Background pass -/

/-- R131: filling a block gives its samples `BG_FILL` and leaves the others alone. -/
theorem readCell_fillBlock (d : Color) (bx by' : Nat) (c : BgCell) (fb : Cells Color) (i : Nat) :
    readCell d (fillBlock bx by' c fb) i = if inBlock bx by' i then d else readCell d fb i := by
  have h := readCell_filter d (fun k => !inBlock bx by' k) fb i
  simp only [fillBlock, h]
  cases inBlock bx by' i <;> rfl

/-- R131: after the background pass every sample is `BG_FILL`. -/
theorem readCell_bgPass (s : State) (d : Color) (fb : Cells Color) (i : Nat) (hi : i < 65536) :
    readCell d (bgPass s fb) i = d := by
  let sel := ramAt s (ramIdx s.cfg.bgSelectAddr.toNat)
  have row := fun (y j : Nat) (f : Cells Color) => readCell_foldl d (fun f x => bgCellPass s sel y x f)
    (fun x j => inBlock x y j = true) (fun _ => d) (List.range 16)
    (fun x _ j f h => by simp [bgCellPass, readCell_fillBlock, h])
    (fun x _ j f h => by simp [bgCellPass, readCell_fillBlock, h]) f j
  refine (readCell_foldl d _ (fun y j => ∃ x ∈ List.range 16, inBlock x y j = true) (fun _ => d) (List.range 16)
    (fun y _ j f h => (row y j f).1 h) (fun y _ j f h => (row y j f).2 fun x hx hb => h ⟨x, hx, hb⟩) fb i).1 ?_
  exact ⟨i / 256 / 16, List.mem_range.mpr (by omega), i % 256 / 16, List.mem_range.mpr (by omega), by simp [inBlock]⟩

theorem wf_bgPass (s : State) {d : Color} {n : Nat} (fb : Cells Color) (h : Memory.wf d n fb) :
    Memory.wf d n (bgPass s fb) :=
  wf_foldl _ _ (fun _ _ f hf => wf_foldl _ _ (fun _ _ _ hg => Memory.wf_filter _ hg) f hf) fb h

/-! ## Foreground pass -/

/-- R137: what writing or skipping one sample does. -/
theorem readCell_fgPut (s : State) (cn : BitVec 4) (p : BitVec 3) (x y : Nat) (fb : Cells Color) (i : Nat) :
    readCell s.cfg.bgFill (fgPut s cn p x y fb) i =
      if p ≠ 0#3 ∧ i = sampleIdx x y then palAt s (cn.toNat * 8 + p.toNat) else readCell s.cfg.bgFill fb i := by
  unfold fgPut transparent
  by_cases hp : p = 0#3
  · simp [hp]
  · simp [hp, readCell_writeCell, penEntry_eq]

/-- The sample index of `(x, y)` determines `x` and `y`. -/
theorem sampleIdx_div_mod {x y i : Nat} (hx : x < 256) (h : i = sampleIdx x y) : i / 256 = y ∧ i % 256 = x := by
  unfold sampleIdx at h; omega

/-- The pen of sample `(x, y)`, by the pass's own operands. -/
def penAt (s : State) (x y : Nat) : BitVec 3 :=
  let off := y / 8 * 32 + x / 8
  let tile := tileIndex (clrBank s.cfg (fgColor s off)) (fgCode s off)
  pen (planeByte s.cfg tile (y % 8) 0) (planeByte s.cfg tile (y % 8) 1) (planeByte s.cfg tile (y % 8) 2) (x % 8)

/-- The colour nibble of the cell of sample `(x, y)`, by the pass's own operands. -/
def nibbleAt (s : State) (x y : Nat) : BitVec 4 := clrNibble s.cfg (fgColor s (y / 8 * 32 + x / 8))

/-- The foreground pass writes sample `i`: its pen is not 0. -/
def Lit (s : State) (i : Nat) : Prop := penAt s (i % 256) (i / 256) ≠ 0#3

/-- The colour the foreground pass gives sample `i` where it writes it. -/
def litColor (s : State) (i : Nat) : Color :=
  palAt s ((nibbleAt s (i % 256) (i / 256)).toNat * 8 + (penAt s (i % 256) (i / 256)).toNat)

/-- The colour nibble of cell `(cx, cy)`. -/
def cellNibble (s : State) (cy cx : Nat) : BitVec 4 := clrNibble s.cfg (fgColor s (cy * 32 + cx))

/-- The tile of cell `(cx, cy)`. -/
def cellTile (s : State) (cy cx : Nat) : BitVec 9 :=
  tileIndex (clrBank s.cfg (fgColor s (cy * 32 + cx))) (fgCode s (cy * 32 + cx))

/-- R135-R137: one row of a cell. -/
theorem readCell_fgRow (s : State) (cy cx row : Nat) (hx : cx < 32) (hr : row < 8) (fb : Cells Color) (i : Nat) :
    let r := fgRow s (cellTile s cy cx) (cellNibble s cy cx) cx cy row fb
    let hit := Lit s i ∧ i / 256 = cy * 8 + row ∧ i % 256 / 8 = cx
    (hit → readCell s.cfg.bgFill r i = litColor s i) ∧ (¬ hit → readCell s.cfg.bgFill r i = readCell s.cfg.bgFill fb i) := by
  intro r hit
  let pn := fun col => pen (planeByte s.cfg (cellTile s cy cx) row 0) (planeByte s.cfg (cellTile s cy cx) row 1)
    (planeByte s.cfg (cellTile s cy cx) row 2) col
  have hpen : ∀ col, col < 8 → penAt s (cx * 8 + col) (cy * 8 + row) = pn col := fun col hc => by
    have h1 : (cy * 8 + row) / 8 = cy := by omega
    have h2 : (cx * 8 + col) / 8 = cx := by omega
    have h3 : (cy * 8 + row) % 8 = row := by omega
    have h4 : (cx * 8 + col) % 8 = col := by omega
    simp only [penAt, h1, h2, h3, h4, pn, cellTile]
  have hnib : ∀ col, col < 8 → nibbleAt s (cx * 8 + col) (cy * 8 + row) = cellNibble s cy cx := fun col hc => by
    have h1 : (cy * 8 + row) / 8 = cy := by omega
    have h2 : (cx * 8 + col) / 8 = cx := by omega
    simp only [nibbleAt, h1, h2, cellNibble]
  have key := readCell_foldl s.cfg.bgFill
    (fun f col => fgPut s (cellNibble s cy cx) (pn col) (cx * 8 + col) (cy * 8 + row) f)
    (fun col j => Lit s j ∧ j = sampleIdx (cx * 8 + col) (cy * 8 + row)) (litColor s) (List.range 8)
    (fun col hcol j f h => by
      have hc := List.mem_range.mp hcol
      obtain ⟨hl, hj⟩ := h
      obtain ⟨hd, hm⟩ := sampleIdx_div_mod (by omega) hj
      have hl' : pn col ≠ 0#3 := by simpa only [Lit, hd, hm, hpen col hc] using hl
      rw [readCell_fgPut, if_pos ⟨hl', hj⟩, litColor, hd, hm, hpen col hc, hnib col hc])
    (fun col hcol j f h => by
      have hc := List.mem_range.mp hcol
      rw [readCell_fgPut, if_neg]
      rintro ⟨hp, hj⟩
      obtain ⟨hd, hm⟩ := sampleIdx_div_mod (by omega) hj
      exact h ⟨by simpa only [Lit, hd, hm, hpen col hc] using hp, hj⟩) fb i
  refine ⟨fun ⟨hl, hy, hxx⟩ => key.1 ⟨i % 8, List.mem_range.mpr (by omega), hl, ?_⟩, fun h => key.2 ?_⟩
  · unfold sampleIdx; omega
  · rintro col hcol ⟨hl, hj⟩
    have hc := List.mem_range.mp hcol
    obtain ⟨hd, hm⟩ := sampleIdx_div_mod (by omega) hj
    exact h ⟨hl, hd, by omega⟩

/-- R133-R137: one cell. -/
theorem readCell_fgCell (s : State) (cy cx : Nat) (hx : cx < 32) (fb : Cells Color) (i : Nat) :
    let hit := Lit s i ∧ i / 256 / 8 = cy ∧ i % 256 / 8 = cx
    (hit → readCell s.cfg.bgFill (fgCell s cy cx fb) i = litColor s i) ∧
      (¬ hit → readCell s.cfg.bgFill (fgCell s cy cx fb) i = readCell s.cfg.bgFill fb i) := by
  intro hit
  have key := readCell_foldl s.cfg.bgFill
    (fun f row => fgRow s (cellTile s cy cx) (cellNibble s cy cx) cx cy row f)
    (fun row j => Lit s j ∧ j / 256 = cy * 8 + row ∧ j % 256 / 8 = cx) (litColor s) (List.range 8)
    (fun row hrow j f h => (readCell_fgRow s cy cx row hx (List.mem_range.mp hrow) f j).1 h)
    (fun row hrow j f h => (readCell_fgRow s cy cx row hx (List.mem_range.mp hrow) f j).2 h) fb i
  refine ⟨fun ⟨hl, hy, hxx⟩ => key.1 ⟨i / 256 % 8, List.mem_range.mpr (by omega), hl, by omega, hxx⟩, fun h => key.2 ?_⟩
  rintro row hrow ⟨hl, hy, hxx⟩
  have := List.mem_range.mp hrow
  exact h ⟨hl, by omega, hxx⟩

/-- R133: the foreground pass writes exactly the samples whose pen is not 0. -/
theorem readCell_fgPass (s : State) (fb : Cells Color) (i : Nat) (hi : i < 65536) :
    (Lit s i → readCell s.cfg.bgFill (fgPass s fb) i = litColor s i) ∧
      (¬ Lit s i → readCell s.cfg.bgFill (fgPass s fb) i = readCell s.cfg.bgFill fb i) := by
  have band := fun (cy j : Nat) (f : Cells Color) => readCell_foldl s.cfg.bgFill (fun f cx => fgCell s cy cx f)
    (fun cx j => Lit s j ∧ j / 256 / 8 = cy ∧ j % 256 / 8 = cx) (litColor s) (List.range 32)
    (fun cx hcx j f h => (readCell_fgCell s cy cx (List.mem_range.mp hcx) f j).1 h)
    (fun cx hcx j f h => (readCell_fgCell s cy cx (List.mem_range.mp hcx) f j).2 h) f j
  have key := readCell_foldl s.cfg.bgFill (fun f cy => (List.range 32).foldl (fun f cx => fgCell s cy cx f) f)
    (fun cy j => Lit s j ∧ j / 256 / 8 = cy) (litColor s) (List.range 32)
    (fun cy _ j f h => (band cy j f).1 ⟨j % 256 / 8, List.mem_range.mpr (by omega), h.1, h.2, rfl⟩)
    (fun cy _ j f h => (band cy j f).2 fun cx _ hh => h ⟨hh.1, hh.2.1⟩) fb i
  exact ⟨fun hl => key.1 ⟨i / 256 / 8, List.mem_range.mpr (by omega), hl, rfl⟩, fun h => key.2 fun cy _ hh => h hh.1⟩

theorem wf_fgPut (s : State) (cn : BitVec 4) (p : BitVec 3) {x y : Nat} (hx : x < 256) (hy : y < 256) (fb : Cells Color)
    (h : Memory.wf s.cfg.bgFill 65536 fb) : Memory.wf s.cfg.bgFill 65536 (fgPut s cn p x y fb) := by
  unfold fgPut
  split
  · exact h
  · exact Memory.wf_writeCell _ h (by unfold sampleIdx; omega)

theorem wf_fgPass (s : State) (fb : Cells Color) (h : Memory.wf s.cfg.bgFill 65536 fb) :
    Memory.wf s.cfg.bgFill 65536 (fgPass s fb) := by
  refine wf_foldl _ _ (fun cy hcy f hf => wf_foldl _ _ (fun cx hcx g hg => wf_foldl _ _ (fun row hrow k hk =>
    wf_foldl _ _ (fun col hcol m hm => wf_fgPut s _ _ ?_ ?_ m hm) k hk) g hg) f hf) fb h
  all_goals simp only [List.mem_range] at hcy hcx hrow hcol; omega

/-! ## The pass's own operands as numbers (the terms of R138) -/

/-- R136: a pen as a number. -/
theorem pen_toNat (p0 p1 p2 : Byte) (col : Nat) :
    (pen p0 p1 p2 col).toNat = bitOf p2 (7 - col) * 4 + bitOf p1 (7 - col) * 2 + bitOf p0 (7 - col) := by
  unfold pen bitOf
  cases p2.getLsbD (7 - col) <;> cases p1.getLsbD (7 - col) <;> cases p0.getLsbD (7 - col) <;> rfl

/-- R134: the colour nibble as a number. -/
theorem clrNibble_toNat (cfg : Config) (c : Byte) :
    (clrNibble cfg c).toNat = match cfg.fgColorLo with
      | .low => c.toNat % 16
      | .high => c.toNat / 16 := by
  unfold clrNibble loNibble hiNibble
  have := c.isLt
  cases cfg.fgColorLo <;> simp only [BitVec.extractLsb'_toNat, Nat.shiftRight_eq_div_pow] <;> omega

/-- R134: a tile index as a number. -/
theorem tileIndex_toNat (b : Bool) (c : Byte) : (tileIndex b c).toNat = (if b then 1 else 0) * 256 + c.toNat := by
  have h := Nat.shiftLeft_add_eq_or_of_lt c.isLt (BitVec.ofBool b).toNat
  rw [tileIndex, BitVec.toNat_append, ← h, Nat.shiftLeft_eq]
  cases b <;> rfl

theorem nibbleAt_toNat (s : State) (x y : Nat) : (nibbleAt s x y).toNat = nibbleOf s (x / 8) (y / 8) := by
  rw [nibbleAt, clrNibble_toNat]; rfl

theorem penAt_toNat (s : State) (x y : Nat) : (penAt s x y).toNat = penOf s x y := by
  have h : (tileIndex (clrBank s.cfg (fgColor s (y / 8 * 32 + x / 8))) (fgCode s (y / 8 * 32 + x / 8))).toNat
      = tileOf s (x / 8) (y / 8) := by rw [tileIndex_toNat]; rfl
  rw [penAt, pen_toNat, penOf]
  simp only [planeByte, planeOf, tileBase, h]

end Sys2Proof.Machine
end

