-- ==== Sys2Proof/Tests/Slice0.lean ====
section
/-!
SUPPORT. Tests. Expected values are those of spec/95_test_vectors.md (the section is named at each test) or are written out
from the rule named; none was taken from the model.
-/

namespace Sys2Proof.Tests

open Sys2Proof Sys2Proof.Machine

/-! ## Well-formedness: one refused term, and the edges of what is admitted, for each check -/

/-- R81: `PAL.RD` admits 0x9C00-0x9CFF. -/
theorem test_wf_palRd : (Instr.palRd 4 0x9BFF 0).wellFormed = false ∧ (Instr.palRd 4 0x9C00 0).wellFormed = true
    ∧ (Instr.palRd 4 0x9CFF 0).wellFormed = true ∧ (Instr.palRd 4 0x9D00 0).wellFormed = false := by decide

/-- R82: `PAL.WR.E` admits the even addresses of the region only. -/
theorem test_wf_palWrE : (Instr.palWrE 4 0x9C01 0).wellFormed = false ∧ (Instr.palWrE 4 0x9BFE 0).wellFormed = false
    ∧ (Instr.palWrE 4 0x9C00 0).wellFormed = true ∧ (Instr.palWrE 4 0x9CFE 0).wellFormed = true := by decide

/-- R83: `PAL.WR.O` admits the odd addresses of the region only. -/
theorem test_wf_palWrO : (Instr.palWrO 4 0x9C00 0).wellFormed = false ∧ (Instr.palWrO 4 0x9D01 0).wellFormed = false
    ∧ (Instr.palWrO 4 0x9C01 0).wellFormed = true ∧ (Instr.palWrO 4 0x9CFF 0).wellFormed = true := by decide

/-- R98, R100: 0x0000-0x7FFF. -/
theorem test_wf_romLow : (Instr.romlRd 4 0x8000 0).wellFormed = false ∧ (Instr.romlWr 4 0x8000 0).wellFormed = false
    ∧ (Instr.romlRd 4 0x0000 0).wellFormed = true ∧ (Instr.romlWr 4 0x7FFF 0).wellFormed = true := by decide

/-- R99, R101: 0xC000-0xDFFF. -/
theorem test_wf_romHigh : (Instr.romhRd 4 0xBFFF 0).wellFormed = false ∧ (Instr.romhWr 4 0xE000 0).wellFormed = false
    ∧ (Instr.romhRd 4 0xC000 0).wellFormed = true ∧ (Instr.romhWr 4 0xDFFF 0).wellFormed = true := by decide

/-- R102, R103: 0x8000-0x9BFF or 0x9D00-0x9FFF. -/
theorem test_wf_plainRam : (Instr.ramRd 4 0x7FFF 0).wellFormed = false ∧ (Instr.ramRd 4 0x9C00 0).wellFormed = false
    ∧ (Instr.ramWr 4 0x9CFF 0).wellFormed = false ∧ (Instr.ramWr 4 0xA000 0).wellFormed = false
    ∧ (Instr.ramRd 4 0x8000 0).wellFormed = true ∧ (Instr.ramRd 4 0x9BFF 0).wellFormed = true
    ∧ (Instr.ramWr 4 0x9D00 0).wellFormed = true ∧ (Instr.ramWr 4 0x9FFF 0).wellFormed = true := by decide

/-- R104, R105: the four unmapped ranges; neither the ports nor the latch. -/
theorem test_wf_unmapped : (Instr.unmapRd 4 0xB005 0).wellFormed = false ∧ (Instr.unmapWr 4 0xB800 0).wellFormed = false
    ∧ (Instr.unmapRd 4 0xC000 0).wellFormed = false ∧ (Instr.unmapRd 4 0x9FFF 0).wellFormed = false
    ∧ (Instr.unmapRd 4 0xA000 0).wellFormed = true ∧ (Instr.unmapRd 4 0xAFFF 0).wellFormed = true
    ∧ (Instr.unmapRd 4 0xB006 0).wellFormed = true ∧ (Instr.unmapWr 4 0xB7FF 0).wellFormed = true
    ∧ (Instr.unmapWr 4 0xB801 0).wellFormed = true ∧ (Instr.unmapWr 4 0xBFFF 0).wellFormed = true
    ∧ (Instr.unmapWr 4 0xE000 0).wellFormed = true ∧ (Instr.unmapWr 4 0xFFFF 0).wellFormed = true := by decide

/-- R8, R9: the default configuration is well formed; one that breaks each of its checks is not. -/
theorem test_wf_config : configWellFormed Config.default = true
    ∧ configWellFormed { Config.default with period := 0 } = false
    ∧ configWellFormed { Config.default with progRomLo := zeroImage 32767 } = false
    ∧ configWellFormed { Config.default with progRomHi := zeroImage 8193 } = false
    ∧ configWellFormed { Config.default with nChars := 4096 } = false
    ∧ configWellFormed { Config.default with nBgTiles := 0, romBgTiles := zeroImage 0 } = false := by decide

/-- R8, R9, continued. -/
theorem test_wf_config' : configWellFormed { Config.default with romSprites := zeroImage 1 } = false
    ∧ configWellFormed { Config.default with nTilemap := 1 } = false
    ∧ configWellFormed { Config.default with bgSelectAddr := 0x7FFF } = false
    ∧ configWellFormed { Config.default with fgCodeBase := 0xA000 } = false
    ∧ configWellFormed { Config.default with fgColorBase := 0x0000 } = false
    ∧ configWellFormed { Config.default with fgBankBit := 3 } = false
    ∧ configWellFormed { Config.default with tmPageSize := 0 } = false
    ∧ configWellFormed { Config.default with bgFill := 0x00FFFFFF } = false
    ∧ configWellFormed { Config.default with sndRamSize := 0 } = false := by decide

/-! ## Decoding: words of the spec -/

/-- R57, field by field: `{CYC, KIND, INT, IO, WR, RD, D, A}`, a palette write, a port read, a ROM read, an I/O write. -/
theorem test_decode_txn_fields :
    decode (0x00000004#32 ++ 0b0000#4 ++ 0b0#1 ++ 0b0#1 ++ 0b1#1 ++ 0b0#1 ++ 0b01010011#8 ++ 0b1001110000000000#16)
      = .ok (.palWrE 4 0x9C00 0x53)
    ∧ decode (0x00000003#32 ++ 0b0000#4 ++ 0b0#1 ++ 0b0#1 ++ 0b0#1 ++ 0b1#1 ++ 0b00000000#8 ++ 0b1011000000000001#16)
      = .ok (.joy2Rd 3 0x00)
    ∧ decode (0x00000004#32 ++ 0b0000#4 ++ 0b1#1 ++ 0b0#1 ++ 0b0#1 ++ 0b1#1 ++ 0b01110111#8 ++ 0b0001001000110100#16)
      = .ok (.romlRd 4 0x1234 0x77)
    ∧ decode (0x00000004#32 ++ 0b0000#4 ++ 0b0#1 ++ 0b1#1 ++ 0b1#1 ++ 0b0#1 ++ 0b00000001#8 ++ 0b1011000000000000#16)
      = .ok (.ioWr 4 0xB000 0x01) := by decide

/-- R60-R63, field by field: a sound-board read, `RENDER`, `SETIN SYS, 0x05`, `RESET`. -/
theorem test_decode_other_fields :
    decode (0x00000004#32 ++ 0b0100#4 ++ 0b0#1 ++ 0b0#1 ++ 0b0#1 ++ 0b1#1 ++ 0b00111100#8 ++ 0b0100000000000000#16)
      = .ok (.sndRd 4 false 0x4000 0x3C)
    ∧ decode (0x00000000#32 ++ 0b0001#4 ++ 0#28) = .ok .render
    ∧ decode (0x00000000#32 ++ 0b0010#4 ++ 0b0000#4 ++ 0b00000101#8 ++ 0#13 ++ 0b010#3) = .ok (.setinSys 0x05)
    ∧ decode (0x00000000#32 ++ 0b0011#4 ++ 0#28) = .ok .reset := by decide

/-- 95 section 2.3. -/
theorem test_decode_palette :
    decode 0x0000000401009C00#64 = .ok (.palRd 4 0x9C00 0) ∧ decode 0x0000000401009CFF#64 = .ok (.palRd 4 0x9CFF 0)
    ∧ decode 0x0000000402F09CFE#64 = .ok (.palWrE 4 0x9CFE 0xF0) ∧ decode 0x0000000402FF9CFF#64 = .ok (.palWrO 4 0x9CFF 0xFF)
    ∧ decode 0x0000000402119BFF#64 = .ok (.ramWr 4 0x9BFF 0x11) ∧ decode 0x0000000402229D00#64 = .ok (.ramWr 4 0x9D00 0x22) := by
  decide

/-- 95 section 2.4, the reads. -/
theorem test_decode_port_reads :
    decode 0x000000040100B000#64 = .ok (.joy1Rd 4 0) ∧ decode 0x000000040100B001#64 = .ok (.joy2Rd 4 0)
    ∧ decode 0x000000040100B002#64 = .ok (.sysRd 4 0) ∧ decode 0x00000004015AB003#64 = .ok (.b003Rd 4 0x5A)
    ∧ decode 0x000000040100B004#64 = .ok (.dip1Rd 4 0) ∧ decode 0x000000040100B005#64 = .ok (.dip2Rd 4 0)
    ∧ decode 0x0000000401A5B800#64 = .ok (.slatchRd 4 0xA5) ∧ decode 0x000000040100B006#64 = .ok (.unmapRd 4 0xB006 0)
    ∧ decode 0x000000040100B801#64 = .ok (.unmapRd 4 0xB801 0) := by decide

/-- 95 section 2.4, the writes. -/
theorem test_decode_port_writes :
    decode 0x000000040201B000#64 = .ok (.imaskWr 4 0x01) ∧ decode 0x0000000402FFB001#64 = .ok (.b001Wr 4 0xFF)
    ∧ decode 0x0000000402FFB002#64 = .ok (.b002Wr 4 0xFF) ∧ decode 0x000000040212B003#64 = .ok (.b003Wr 4 0x12)
    ∧ decode 0x000000040201B004#64 = .ok (.flipWr 4 0x01) ∧ decode 0x000000040277B005#64 = .ok (.b005Wr 4 0x77)
    ∧ decode 0x000000040242B800#64 = .ok (.slatchWr 4 0x42) := by decide

/-- 95 section 2.5. -/
theorem test_decode_resolver :
    decode 0x0000000401007FFF#64 = .ok (.romlRd 4 0x7FFF 0) ∧ decode 0x0000000402AA0000#64 = .ok (.romlWr 4 0x0000 0xAA)
    ∧ decode 0x0000000401008000#64 = .ok (.ramRd 4 0x8000 0) ∧ decode 0x0000000402019FFF#64 = .ok (.ramWr 4 0x9FFF 0x01)
    ∧ decode 0x000000040100A000#64 = .ok (.unmapRd 4 0xA000 0) ∧ decode 0x000000040255A000#64 = .ok (.unmapWr 4 0xA000 0x55)
    ∧ decode 0x000000040100DFFF#64 = .ok (.romhRd 4 0xDFFF 0) ∧ decode 0x0000000402AAC000#64 = .ok (.romhWr 4 0xC000 0xAA)
    ∧ decode 0x000000040112FFFF#64 = .ok (.unmapRd 4 0xFFFF 0x12) := by decide

/-- 95 sections 2.6 and 2.8; the last word has the input bit `INT` set (R70). -/
theorem test_decode_io_sound :
    decode 0x000000040599B000#64 = .ok (.ioRd 4 0xB000 0x99) ∧ decode 0x0000000406FF9C00#64 = .ok (.ioWr 4 0x9C00 0xFF)
    ∧ decode 0x0000000A00000000#64 = .ok (.idle 10 false 0 0) ∧ decode 0x0000000403009C00#64 = .ok (.rsvdRdwr 4 false 0x9C00 0)
    ∧ decode 0x00000004413C4000#64 = .ok (.sndRd 4 false 0x4000 0x3C) ∧ decode 0x0000000442078000#64 = .ok (.sndWr 4 false 0x8000 0x07)
    ∧ decode 0x0000000440000000#64 = .ok (.sndIdle 4 false 0 0) ∧ decode 0x0000000409009C00#64 = .ok (.palRd 4 0x9C00 0) := by
  decide

/-- 95 section 2.10. -/
theorem test_decode_host :
    decode 0x0000000030000000#64 = .ok .reset ∧ decode 0x0000000010000000#64 = .ok .render
    ∧ decode 0x0000000020210000#64 = .ok (.setinJoy1 0x21) ∧ decode 0x0000000020040001#64 = .ok (.setinJoy2 0x04)
    ∧ decode 0x0000000020050002#64 = .ok (.setinSys 0x05) ∧ decode 0x0000000020C00003#64 = .ok (.setinDip1 0xC0)
    ∧ decode 0x00000000203F0004#64 = .ok (.setinDip2 0x3F) := by decide

/-- 95 section 2.6 and R68, R69: reserved words are rejected by name. -/
theorem test_decode_reserved :
    decode 0x0000000050000000#64 = .error (.reservedKind 5) ∧ decode 0x00000000F0000000#64 = .error (.reservedKind 15)
    ∧ decode 0x0000000020000005#64 = .error (.reservedSel 5) ∧ decode 0x0000000010000001#64 = .error .mustBeZero
    ∧ decode 0x0000000020000008#64 = .error .mustBeZero ∧ decode 0x0000000130000000#64 = .error .mustBeZero
    ∧ decode 0x0000000443000000#64 = .error .soundReadWrite := by decide

/-- The words above are also what the encoder gives. -/
theorem test_encode :
    encode (.palWrO 4 0x9CFF 0xFF) = 0x0000000402FF9CFF#64 ∧ encode (.flipWr 4 0x01) = 0x000000040201B004#64
    ∧ encode (.ioRd 4 0xB000 0x99) = 0x000000040599B000#64 ∧ encode (.sndWr 4 false 0x8000 0x07) = 0x0000000442078000#64
    ∧ encode (.setinDip2 0x3F) = 0x00000000203F0004#64 ∧ encode .reset = 0x0000000030000000#64 := by decide

/-! ## One step of each stimulus -/

/-- The response `{dout, int}` of an outcome. -/
def reply (o : Host.Outcome State Fault Refusal) : Option (Byte × Bool) :=
  match o with
  | .next t => t.response.map fun r => (r.dout, r.int)
  | _ => none

/-- A field of the next state. -/
def after {β : Type} (f : State → β) (o : Host.Outcome State Fault Refusal) : Option β :=
  match o with
  | .next t => some (f t)
  | _ => none

/-- 95 section 2.4: the latches are loaded. -/
def ports : State :=
  { State.reset with joy1 := 0x21, joy2 := 0x04, sys := 0x05, dip1 := 0xC0, dip2 := 0x3F, imask := 0x02 }

/-- 95 section 2.5: four bytes of program ROM. -/
def roms : State := { State.reset with cfg := { Config.default with
  progRomLo := { size := 32768, cells := [(0, 0xF3), (0x7FFF, 0x76)] }
  progRomHi := { size := 8192, cells := [(0, 0x3E), (0x1FFF, 0xC9)] } } }

/-- 95 section 2.7: `PERIOD = 100`, `ACC = 98`. -/
def tight (mask : Byte) : State := { State.reset with cfg := { Config.default with period := 100 }, acc := 98, imask := mask }

/-- 95 section 2.3: a palette read returns the raw byte. -/
theorem test_palRd : reply (handle 0x0000000401009C01#64 { State.reset with ram := [(0x1C01, 0xFA)] }) = some (0xFA, false) := by
  decide

/-- 95 S2, first line. -/
theorem test_palWrE : after (fun t => (ramAt t 0x1C00, palAt t 0, t.acc)) (handle 0x0000000402539C00#64 State.reset)
    = some (0x53, 0xFF005533, 4) := by decide

/-- 95 S2, second line, from the state the first leaves. -/
theorem test_palWrO : after (fun t => (ramAt t 0x1C01, palAt t 0, palAt t 1))
    (handle 0x00000004020A9C01#64 { State.reset with pal := [(0, 0xFF005533)] }) = some (0x0A, 0xFFAA5533, 0xFF000000) := by
  decide

/-- 95 section 2.3: the last entry. -/
theorem test_palWrO_last : after (fun t => palAt t 127)
    (handle 0x0000000402FF9CFF#64 { State.reset with pal := [(127, 0xFF00FF00)] }) = some 0xFFFFFF00 := by decide

/-- 95 section 2.4: reads of the ports; 0xB000 answers the joystick, not the mask. -/
theorem test_port_reads :
    reply (handle 0x000000040100B000#64 ports) = some (0x21, false) ∧ reply (handle 0x000000040100B001#64 ports) = some (0x04, false)
    ∧ reply (handle 0x000000040100B002#64 ports) = some (0x05, false) ∧ reply (handle 0x00000004015AB003#64 ports) = some (0x5A, false)
    ∧ reply (handle 0x000000040100B004#64 ports) = some (0xC0, false) ∧ reply (handle 0x000000040100B005#64 ports) = some (0x3F, false)
    ∧ reply (handle 0x0000000401A5B800#64 ports) = some (0xA5, false) := by decide

/-- 95 section 2.4: `IMASK.WR` sets the mask and not the joystick. -/
theorem test_imaskWr : after (fun t => (t.imask, t.joy1)) (handle 0x000000040201B000#64 ports) = some (0x01, 0x21) := by decide

/-- 95 section 2.4: the no-op port writes change only the accumulator. -/
theorem test_noop_writes :
    [0x0000000402FFB001#64, 0x0000000402FFB002#64, 0x000000040212B003#64, 0x000000040201B004#64, 0x000000040277B005#64,
      0x000000040242B800#64].all (fun w => after (fun t => { t with response := none }) (handle w ports)
        = some { ports with acc := 4 }) = true := by decide

/-- 95 section 2.5: ROM reads at the edges of both regions. -/
theorem test_rom_reads :
    reply (handle 0x0000000401000000#64 roms) = some (0xF3, false) ∧ reply (handle 0x0000000401007FFF#64 roms) = some (0x76, false)
    ∧ reply (handle 0x000000040100C000#64 roms) = some (0x3E, false)
    ∧ reply (handle 0x000000040100DFFF#64 roms) = some (0xC9, false) := by decide

/-- 95 section 2.5: writes to ROM and to no region answer the byte written and change only the accumulator. -/
theorem test_dead_writes :
    [0x0000000402AA0000#64, 0x0000000402AAC000#64, 0x000000040255A000#64, 0x000000040201FFFF#64].all (fun w =>
      after (fun t => { t with response := none }) (handle w roms) = some { roms with acc := 4 }) = true
    ∧ reply (handle 0x000000040255A000#64 roms) = some (0x55, false) := by decide

/-- 95 section 2.5: RAM at its two ends. -/
theorem test_ramWr : after (fun t => (t.ram, t.pal)) (handle 0x00000004027E8000#64 State.reset) = some ([(0, 0x7E)], [])
    ∧ after (fun t => t.ram) (handle 0x0000000402019FFF#64 State.reset) = some [(0x1FFF, 0x01)] := by decide

/-- 95 section 2.5: a RAM read, and a byte nothing has written. -/
theorem test_ramRd : reply (handle 0x0000000401008000#64 { State.reset with ram := [(0, 0x7E)] }) = some (0x7E, false)
    ∧ reply (handle 0x0000000401008000#64 State.reset) = some (0x00, false) := by decide

/-- 95 section 2.5: the resolver's byte, not the data line. -/
theorem test_unmapRd : reply (handle 0x000000040112FFFF#64 roms) = some (0xFF, false) := by decide

/-- 95 section 2.6: I/O space does not reach the ports. -/
theorem test_io : reply (handle 0x000000040599B000#64 ports) = some (0x99, false)
    ∧ after (fun t => (t.imask, t.ram, t.pal)) (handle 0x0000000406FF9C00#64 State.reset) = some (0, [], []) := by decide

/-- 95 section 2.6: `IDLE`. -/
theorem test_idle : after (fun t => t.acc) (handle 0x0000000A00000000#64 { State.reset with acc := 5 }) = some 15
    ∧ reply (handle 0x0001046A00000000#64 { State.reset with acc := 7, imask := 1 }) = some (0x00, true)
    ∧ after (fun t => t.acc) (handle 0x0001046A00000000#64 { State.reset with acc := 7, imask := 1 }) = some 7 := by decide

/-- 95 section 2.6: reserved words are refused. -/
theorem test_refused : handle 0x0000000403009C00#64 State.reset = .refused .readWriteTogether
    ∧ handle 0x0000000050000000#64 State.reset = .refused (.reservedEncoding (.reservedKind 5)) := ⟨rfl, rfl⟩

/-- 95 section 2.7: the timing step runs first, with the old mask. -/
theorem test_old_mask :
    reply (handle 0x000000040201B000#64 (tight 0)) = some (0x01, false)
    ∧ after (fun t => (t.acc, t.imask)) (handle 0x000000040201B000#64 (tight 0)) = some (2, 1)
    ∧ reply (handle 0x000000040200B000#64 (tight 1)) = some (0x00, true)
    ∧ reply (handle 0x000000040100E000#64 (tight 1)) = some (0xFF, true)
    ∧ reply (handle 0x0000000406000000#64 (tight 1)) = some (0x00, true) := by decide

/-- 95 section 2.2: `ADVANCE`. -/
theorem test_advance :
    ((advance 4 { State.reset with acc := 66662, imask := 1 }).1, (advance 4 { State.reset with acc := 66662, imask := 1 }).2.acc)
      = (true, 0)
    ∧ ((advance 200000 { State.reset with imask := 1 }).1, (advance 200000 { State.reset with imask := 1 }).2.acc) = (true, 2)
    ∧ ((advance 66665 { State.reset with imask := 1 }).1, (advance 66665 { State.reset with imask := 1 }).2.acc)
      = (false, 66665) := by decide

/-- 95 section 2.1: `PALENC`. -/
theorem test_palEnc :
    palEnc 0xFF123456 false 0xA7 = 0xFF12AA77 ∧ palEnc 0xFF123456 true 0xA7 = 0xFF773456
    ∧ palEnc 0xFF000000 true 0xF0 = 0xFF000000 ∧ palEnc 0x12345678 true 0x3C = 0xFFCC5678
    ∧ palEnc 0x00000000 false 0x00 = 0xFF000000 ∧ palEnc 0xFFFFFFFF false 0x00 = 0xFFFF0000 := by decide

/-- 95 section 2.8: the sound board answers the data line and changes nothing. -/
theorem test_sound :
    reply (handle 0x00000004413C4000#64 (tight 1)) = some (0x3C, false)
    ∧ reply (handle 0x000000044201B000#64 (tight 1)) = some (0x01, false)
    ∧ after (fun t => { t with response := none }) (handle 0x000000044201B000#64 (tight 1)) = some (tight 1)
    ∧ reply (handle 0x0000000440000000#64 (tight 1)) = some (0x00, false) := by decide

/-- The five latches of the next state. -/
def latches (o : Host.Outcome State Fault Refusal) : Option (List Byte) :=
  after (fun t => [t.joy1, t.joy2, t.sys, t.dip1, t.dip2]) o

/-- 95 section 2.10: each `SETIN` loads its own latch. -/
theorem test_setin :
    latches (handle 0x0000000020210000#64 State.reset) = some [0x21, 0, 0, 0, 0]
    ∧ latches (handle 0x0000000020040001#64 State.reset) = some [0, 0x04, 0, 0, 0]
    ∧ latches (handle 0x0000000020050002#64 State.reset) = some [0, 0, 0x05, 0, 0]
    ∧ latches (handle 0x0000000020C00003#64 State.reset) = some [0, 0, 0, 0xC0, 0]
    ∧ latches (handle 0x00000000203F0004#64 State.reset) = some [0, 0, 0, 0, 0x3F] := by decide

/-- 95 section 2.10, last line: `RESET` clears what was set. -/
theorem test_reset :
    after (fun t => (t.imask, t.acc, t.joy1, ramAt t 0x1C00, palAt t 0, t.fbValid)) (handle 0x0000000030000000#64
      { State.reset with imask := 1, acc := 8, joy1 := 1, ram := [(0x1C00, 0xFF)], pal := [(0, 0xFF00FFFF)], fbValid := true })
      = some (0, 0, 0, 0, 0xFF000000, false) := by decide

/-! ## The pipeline, one cell -/

/-- 95 P3 at line 19, without the entries no pen shows. -/
def glyph : State := { State.reset with
  cfg := { Config.default with romChars := { size := 12288, cells :=
    [(2568, 0xFF), (2569, 0x81), (2570, 0x81), (2575, 0xFF), (6665, 0x7E), (6666, 0x42), (10762, 0x3C), (10767, 0x0F)] } }
  ram := [(0x10A7, 0x41), (0x14A7, 0x13), (0x1E00, 0x13)]
  pal := [(25, 0xFF0000FF), (26, 0xFF00FF00), (28, 0xFF112233), (29, 0xFFAABBCC)] }

/-- 95 P3: the tile, the nibble, and the select byte's lookup operands. -/
theorem test_glyph_operands : tileIndex (clrBank glyph.cfg (fgColor glyph 167)) (fgCode glyph 167) = 0x141
    ∧ clrNibble glyph.cfg (fgColor glyph 167) = 3 ∧ selPage 0x13 = 3 ∧ selVisible 0x13 = true := by decide

/-- 95 P3: row 2 of the cell. -/
theorem test_glyph_row2 : (List.range 8).map (fun c => readCell glyph.cfg.bgFill (fgRow glyph 0x141 3 7 5 2 []) (42 * 256 + 56 + c))
    = [0xFF0000FF, 0xFF00FF00, 0xFF112233, 0xFF112233, 0xFF112233, 0xFF112233, 0xFF00FF00, 0xFF0000FF] := by decide

/-- 95 P3: row 7 of the cell. -/
theorem test_glyph_row7 : (List.range 8).map (fun c => readCell glyph.cfg.bgFill (fgRow glyph 0x141 3 7 5 7 []) (47 * 256 + 56 + c))
    = [0xFF0000FF, 0xFF0000FF, 0xFF0000FF, 0xFF0000FF, 0xFFAABBCC, 0xFFAABBCC, 0xFFAABBCC, 0xFFAABBCC] := by decide

/-- 95 P3: the landmarks left and right of the cell, and row 7 column 4, by the closed form of R138. -/
theorem test_glyph_landmarks : frameAt glyph 0 0 = 0xFF000000 ∧ frameAt glyph 55 40 = 0xFF000000
    ∧ frameAt glyph 56 40 = 0xFF0000FF ∧ frameAt glyph 64 40 = 0xFF000000 ∧ frameAt glyph 60 47 = 0xFFAABBCC := by decide

/-- R131: a block the background pass fills loses what it held; its neighbour keeps it. -/
theorem test_fillBlock : let f := fillBlock 1 0 (bgLookup Config.default 3 true 1) [(15, 1), (16, 2), (16 * 256 + 16, 3)]
    (readCell 9 f 15, readCell 9 f 16, readCell 9 f (16 * 256 + 16)) = ((1, 9, 3) : Color × Color × Color) := by decide

/-- R130: tile code and attribute at page 2, cell 5, with `TM_PAGE_SIZE = 512` and `TM_ATTR_OFFSET = 256`; blank where hidden. -/
theorem test_bgLookup :
    let cfg := { Config.default with romTilemap := { size := 4096, cells := [(1029, 0x42), (1285, 0x8B)] } }
    bgLookup cfg 2 true 5 = { code := 0x42, colgrp := 0xB, vflip := true }
      ∧ bgLookup cfg 2 false 5 = { code := 0xFF, colgrp := 0xB, vflip := true } := by decide

/-- 95 S6: `N` need not be a power of two. -/
theorem test_romRead : let bank : Image := { size := 12288, cells := [(0, 1), (4096, 2), (12287, 3)] }
    romRead bank 12288 12288 = 1 ∧ romRead bank 12288 (12288 + 12287) = 3 ∧ romRead bank 12288 16384 = 2 := by decide

/-! ## Witnesses: for each statement with hypotheses, values that meet all of them -/

/-- A first stimulus waits at reset. -/
def waiting (w : StimulusWord) : State := placeNext State.reset w

theorem test_reset_memories_wf : Memory.wf ramDefault 8192 State.reset.ram ∧ Memory.wf palDefault 128 State.reset.pal
    ∧ Memory.wf State.reset.cfg.bgFill 65536 State.reset.fb := by decide

/-- DecodeOfEncodeIsIdentity. -/
theorem test_witness_wellFormed : (Instr.palWrO 4 0x9CFF 0xFF).wellFormed = true := by decide

/-- EncodeOfDecodeClearsTheIgnoredBit, with the ignored bit set. -/
theorem test_witness_decode : decode 0x0000000409009C00#64 = .ok (.palRd 4 0x9C00 0) := by decide

/-- InterruptInputBitIsIgnored: both kinds. -/
theorem test_witness_kinds : fieldKind 0x0000000401009C00#64 = 0#4 ∧ fieldKind 0x0000000441000000#64 = 4#4 := by decide

/-- StepRunsTheDecodedStimulus: both clauses. -/
theorem test_witness_step : configWellFormed State.reset.cfg = true ∧ State.reset.pending = []
    ∧ (waiting 0x0000000402539C00#64).pending = [0x0000000402539C00#64]
    ∧ decode 0x0000000402539C00#64 = .ok (.palWrE 4 0x9C00 0x53) := by decide

/-- RefusedExactlyWhenReserved: each way to be refused, and words that are not. -/
theorem test_witness_reserved :
    [0x0000000050000000#64, 0x0000000403009C00#64, 0x0000000443000000#64, 0x0000000010000001#64, 0x0000000020000005#64,
      0x0000000020000008#64, 0x0000000130000000#64].all (fun w => Reserved w) = true
    ∧ [0x0000000020000004#64, 0x0000000402539C00#64, 0x0000000010000000#64].any (fun w => Reserved w) = false := by decide

/-- EveryStepKeepsTheInvariant: a state that meets the invariant and takes a step. -/
theorem test_witness_invariant : Inv (waiting 0x0000000402539C00#64)
    ∧ ∃ t, step (waiting 0x0000000402539C00#64) = .next t := by
  refine ⟨⟨by decide, by decide, by decide, by decide, by decide, fun i _ => ?_, fun h => by cases h⟩, _, rfl⟩
  show (0xFF000000 : Color) = pairColor 0 0
  decide

/-- ConfigurationIsNeverWritten, LatchesAreWrittenOnlyByTheHost, MaskAndAccumulatorWriters, MemoryWriters: a stimulus that
is not `RESET`, is well formed, and completes. -/
theorem test_witness_exec : (∃ t, exec (.ramWr 4 0x8000 0x7E) State.reset = .next t)
    ∧ Instr.ramWr 4 0x8000 0x7E ≠ .reset ∧ (Instr.ramWr 4 0x8000 0x7E).wellFormed = true := ⟨⟨_, rfl⟩, by decide, by decide⟩

/-- The side conditions of the same four: a stimulus that is none of the writers, and one that is no `TXN`. -/
theorem test_witness_frames : (∀ v, Instr.render ≠ .setinJoy1 v) ∧ (∀ cyc d, Instr.render ≠ .imaskWr cyc d)
    ∧ (∀ cyc a d, Instr.render ≠ .palWrE cyc a d ∧ Instr.render ≠ .palWrO cyc a d ∧ Instr.render ≠ .ramWr cyc a d)
    ∧ txnCycles .render = none ∧ Instr.sndIdle 4 false 0 0 ≠ .render := by
  refine ⟨nofun, nofun, fun _ _ _ => ⟨nofun, nofun, nofun⟩, rfl, nofun⟩

/-- EveryTransactionAdvancesTheAccumulator, MaskWriteTakesEffectNext: a `TXN`. -/
theorem test_witness_txn : txnCycles (.idle 66666 false 0 0) = some 66666 := by decide

/-- WrapKeepsTheRangeAndIsOneSubtraction, ExactlyOnePeriodRequestsOnce, IdleAdvancesOnly: the top of the range, and the
largest cycle count below the period; both branches. -/
theorem test_witness_range : (tight 1).acc < (tight 1).cfg.period ∧ 99 < (tight 1).cfg.period
    ∧ (tight 1).cfg.period ≤ (tight 1).acc + 2 ∧ ¬ (tight 1).cfg.period ≤ (tight 1).acc + 1 := by decide

/-- ZeroMaskSuppressesTheRequest: a masked wrap. -/
theorem test_witness_mask : (tight 0).imask = 0x00 ∧ (tight 0).cfg.period ≤ (tight 0).acc + 4 := by decide

/-- LongRunRate: a run with a wrap, under a nonzero mask. -/
theorem test_witness_run : (tight 1).acc < (tight 1).cfg.period ∧ (∀ c ∈ [1, 99, 0, 4], c < (tight 1).cfg.period)
    ∧ (tight 1).imask ≠ 0x00 := by decide

/-- ResponseCopiesThePins: each kind, and both cases of the data line. -/
theorem test_witness_response : (txnCycles (.ioRd 4 0xB000 0x99)).isSome = true ∧ isDrivenRead (.ioRd 4 0xB000 0x99) = false
    ∧ isSnd (.sndIdle 4 false 0 0) = true ∧ isDrivenRead (.unmapRd 4 0xE000 0x12) = true := by decide

/-- The palette statements: both ends of the region, both parities. -/
theorem test_witness_palette : Addr.isPalette 0x9C00 = true ∧ (0x9C00 : Addr).getLsbD 0 = false
    ∧ Addr.isPalette 0x9CFE = true ∧ Addr.isPalette 0x9CFF = true ∧ (0x9CFF : Addr).getLsbD 0 = true := by decide

/-- RomReadsAnswerTheImage: the edges of both clauses, which no address shares. -/
theorem test_witness_rom : (0x7FFF : Addr).toNat ≤ 0x7FFF ∧ 0xC000 ≤ (0xC000 : Addr).toNat ∧ (0xDFFF : Addr).toNat ≤ 0xDFFF
    ∧ ¬ (0x8000 : Addr).toNat ≤ 0x7FFF := by decide

/-- WritesOutsideRamAdvanceOnly, UnmappedReadAnswersTheParameter, the plain RAM statements: the edges of each class. -/
theorem test_witness_classes : Addr.isRomLow 0x7FFF = true ∧ Addr.isRomHigh 0xC000 = true ∧ Addr.isRomHigh 0xDFFF = true
    ∧ Addr.isUnmapped 0xA000 = true ∧ Addr.isUnmapped 0xB801 = true ∧ Addr.isUnmapped 0xFFFF = true
    ∧ Addr.isPlainRam 0x8000 = true ∧ Addr.isPlainRam 0x9BFF = true ∧ Addr.isPlainRam 0x9D00 = true
    ∧ Addr.isPlainRam 0x9FFF = true := by decide

/-- IndicesAreContained, last clause: both ends of RAM. -/
theorem test_witness_ramIdx : ramIdx 0x8000 = 0 ∧ ramIdx 0x9FFF = 8191 := by decide

/-- EveryAddressReadsByTheMap, EveryAddressWritesByTheMap: the map on both sides of each boundary of R40 (95 sections 2.3
to 2.5). -/
theorem test_witness_map : mapRead ports 0xB000 0x99 = 0x21 ∧ mapRead ports 0xB003 0x5A = 0x5A ∧ mapRead ports 0xB006 0x5A = 0xFF
    ∧ mapRead roms 0x7FFF 0 = 0x76 ∧ mapRead roms 0xC000 0 = 0x3E ∧ mapRead roms 0xE000 0 = 0xFF
    ∧ mapRead { State.reset with ram := [(0x1BFF, 0x11), (0x1C00, 0x53), (0x1D00, 0x22)] } 0x9C00 0 = 0x53
    ∧ mapRead { State.reset with ram := [(0x1BFF, 0x11), (0x1C00, 0x53), (0x1D00, 0x22)] } 0x9D00 0 = 0x22 := by decide

/-- BoardsAreIndependent: a sound stimulus that completes, and a stimulus that is not `RESET`. -/
theorem test_witness_boards : isSnd (.sndWr 4 false 0x8000 0x07) = true
    ∧ (∃ t, exec (.sndWr 4 false 0x8000 0x07) State.reset = .next t) ∧ Instr.palRd 4 0x9C00 0 ≠ .reset
    ∧ ∃ t, exec (.palRd 4 0x9C00 0) State.reset = .next t := ⟨rfl, ⟨_, rfl⟩, by decide, _, rfl⟩

/-- ReadsHaveNoSideEffect: a driven read that completes. -/
theorem test_witness_reads : isMainRead (.ramRd 4 0x8000 0) = true ∧ isDrivenRead (.ramRd 4 0x8000 0) = true
    ∧ ∃ t, exec (.ramRd 4 0x8000 0) State.reset = .next t := ⟨rfl, rfl, _, rfl⟩

/-- RenderIsDeterminedAndIdempotent: two states that differ in a latch and in an image no pass shows. -/
theorem test_witness_determined :
    let u : State := { glyph with joy1 := 0xFF, cfg := { glyph.cfg with nSprites := 1, romSprites := zeroImage 1 } }
    let c := glyph.cfg
    u.ram = glyph.ram ∧ u.pal = glyph.pal ∧ u ≠ glyph
      ∧ u.cfg = { glyph.cfg with
          progRomLo := c.progRomLo, progRomHi := c.progRomHi, romBgTiles := c.romBgTiles, romSprites := zeroImage 1,
          romTilemap := c.romTilemap, nBgTiles := c.nBgTiles, nSprites := 1, nTilemap := c.nTilemap }
      ∧ (∃ t, exec .render u = .next t) ∧ ∃ t, exec .render glyph = .next t :=
  ⟨rfl, rfl, by decide, rfl, ⟨_, rfl⟩, _, rfl⟩

/-- FrameDependsOnlyOnTheCellBytes: two states that differ in the background-select byte. -/
theorem test_witness_cellBytes :
    let u : State := { glyph with ram := [(0x10A7, 0x41), (0x14A7, 0x13)] }
    u.cfg = glyph.cfg ∧ u.pal = glyph.pal ∧ ramAt u 0x1E00 ≠ ramAt glyph 0x1E00
      ∧ ∀ off < 1024, ramAt u (ramIdx (glyph.cfg.fgCodeBase.toNat + off)) = ramAt glyph (ramIdx (glyph.cfg.fgCodeBase.toNat + off))
        ∧ ramAt u (ramIdx (glyph.cfg.fgColorBase.toNat + off)) = ramAt glyph (ramIdx (glyph.cfg.fgColorBase.toNat + off)) := by
  refine ⟨rfl, rfl, by decide, fun off h => ?_⟩
  have h1 : glyph.cfg.fgCodeBase.toNat = 0x9000 := rfl
  have h2 : glyph.cfg.fgColorBase.toNat = 0x9400 := rfl
  have h3 : ∀ n : Nat, n < 0x9E00 → 0x8000 ≤ n → ramIdx n ≠ 0x1E00 := fun n _ _ => by unfold ramIdx; omega
  have e : ∀ i : Nat, i ≠ 0x1E00 → readCell ramDefault [(0x10A7, 0x41), (0x14A7, 0x13)] i = ramAt glyph i := fun i hi => by
    simp [ramAt, glyph, readCell_cons, hi.symm]
  exact ⟨e _ (h3 _ (by omega) (by omega)), e _ (h3 _ (by omega) (by omega))⟩

/-- ZeroPlaneRowsAreTransparent: the last row of the last cell, whose tile is 0. -/
theorem test_witness_zeroPlanes : (∀ k < 3, planeOf glyph (tileOf glyph 31 31) 7 k = 0x00) ∧ ∃ t, exec .render glyph = .next t :=
  ⟨by decide, _, rfl⟩

/-- BaselineFrameIsTheFill: the default character ROM. -/
theorem test_witness_baseline : (∀ k, romRead State.reset.cfg.romChars State.reset.cfg.nChars k = 0x00)
    ∧ ∃ t, exec .render State.reset = .next t := ⟨fun _ => rfl, _, rfl⟩

/-- RenderedFrameIsOpaque: a well-formed configuration, a state that meets the invariant, and its `RENDER`. -/
theorem test_witness_opaque : configWellFormed (waiting 0).cfg = true ∧ Inv (waiting 0)
    ∧ ∃ t, exec .render (waiting 0) = .next t := by
  refine ⟨by decide, ⟨by decide, by decide, by decide, by decide, by decide, fun i _ => ?_, fun h => by cases h⟩, _, rfl⟩
  show (0xFF000000 : Color) = pairColor 0 0
  decide

/-! ## The host's two questions -/

/-- The word of an opcode-table row, decoded, and run as the first stimulus after reset. -/
theorem test_tableWord : decodeTableWord 64 0x02009C00 = some (.palWrE 0 0x9C00 0)
    ∧ decodeTableWord 32 0x10000000 = some .render ∧ decodeTableWord 64 0x50000000 = none := by decide

theorem test_withFetchWord : step (State.reset.withFetchWord 64 0x0100B000) = exec (.joy1Rd 0 0) State.reset := rfl

end Sys2Proof.Tests
end

/-! ## Proofs: the step, what it runs and what it refuses (O6, O7) -/

namespace Sys2Proof.Machine

/-! ### The step by the queue -/

theorem step_of_pending_nil {s : State} (hc : configWellFormed s.cfg = true) (hp : s.pending = []) : step s = .next s := by
  simp [step, hc, fetch_nil hp]

theorem step_of_pending_cons {s : State} {w : StimulusWord} {ws : List StimulusWord}
    (hc : configWellFormed s.cfg = true) (hp : s.pending = w :: ws) : step s = handle w (s.setPending ws) := by
  simp [step, hc, fetch_cons hp]

theorem handle_of_decode_ok {w : StimulusWord} {i : Instr} (hd : decode w = .ok i) (s : State) : handle w s = exec i s := by
  simp [handle, hd]

/-- Settles O6: the two clauses are the step on an empty and on a nonempty queue. -/
theorem stepRunsTheDecodedStimulus : Obligations.StepRunsTheDecodedStimulus := by
  intro s hc
  refine ⟨step_of_pending_nil hc, fun w ws i hp hd => ?_⟩
  calc step s = handle w (s.setPending ws) := step_of_pending_cons hc hp
    _ = exec i { s with pending := ws } := handle_of_decode_ok hd _

/-! ### What is refused, by the decoded stimulus -/

/-- The one stimulus `exec` refuses (R80). -/
def isReadWriteTogether : Instr → Bool
  | .rsvdRdwr _ _ _ _ => true
  | _ => false

/-- What the decoder answers for a word that is refused in every state: a rejection, or `RSVD.RDWR`. -/
def isRefusal : Except DecodeError Instr → Bool
  | .error _ => true
  | .ok i => isReadWriteTogether i

@[simp] theorem isRefusal_error (e : DecodeError) : isRefusal (.error e) = true := rfl

@[simp] theorem isRefusal_ok (i : Instr) : isRefusal (.ok i) = isReadWriteTogether i := rfl

theorem exec_refused_iff (i : Instr) (s : State) : (∃ r, exec i s = .refused r) ↔ isReadWriteTogether i = true := by
  cases i
  case rsvdRdwr => exact ⟨fun _ => rfl, fun _ => ⟨_, rfl⟩⟩
  all_goals exact ⟨nofun, nofun⟩

theorem handle_refused_iff_isRefusal (w : StimulusWord) (s : State) :
    (∃ r, handle w s = .refused r) ↔ isRefusal (decode w) = true := by
  cases hd : decode w with
  | error e => simp [handle, hd]
  | ok i => simp [handle_of_decode_ok hd, exec_refused_iff]

/-! ### Must-be-zero bits -/

/-- The mask of the `n` bits from bit `i` on. -/
def fieldMask (i n : Nat) : StimulusWord := (BitVec.allOnes n).setWidth 64 <<< i

theorem getLsbD_fieldMask (i n j : Nat) : (fieldMask i n).getLsbD j = decide (i ≤ j ∧ j < i + n ∧ j < 64) := by
  rw [fieldMask, BitVec.getLsbD_shiftLeft, BitVec.getLsbD_setWidth, BitVec.getLsbD_allOnes, Bool.eq_iff_iff]
  simp only [Bool.and_eq_true, Bool.not_eq_true', decide_eq_true_eq, decide_eq_false_iff_not]
  omega

theorem and_fieldMask_eq_zero_iff (w : StimulusWord) (i n : Nat) :
    w &&& fieldMask i n = 0#64 ↔ w.extractLsb' i n = 0#n := by
  refine ⟨fun h => BitVec.eq_of_getLsbD_eq fun j hj => ?_, fun h => BitVec.eq_of_getLsbD_eq fun j hj => ?_⟩
  · have hw : (w &&& fieldMask i n).getLsbD (i + j) = false := by rw [h, BitVec.getLsbD_zero]
    rw [BitVec.getLsbD_extractLsb', BitVec.getLsbD_zero, decide_eq_true hj, Bool.true_and]
    by_cases hij : i + j < 64
    · rwa [BitVec.getLsbD_and, getLsbD_fieldMask, decide_eq_true (by omega), Bool.and_true] at hw
    · exact BitVec.getLsbD_of_ge w _ (by omega)
  · rw [BitVec.getLsbD_and, getLsbD_fieldMask, BitVec.getLsbD_zero]
    by_cases hij : i ≤ j ∧ j < i + n
    · have hw : (w.extractLsb' i n).getLsbD (j - i) = false := by rw [h, BitVec.getLsbD_zero]
      rw [BitVec.getLsbD_extractLsb', decide_eq_true (by omega), Bool.true_and, Nat.add_sub_cancel' hij.1] at hw
      rw [hw, Bool.false_and]
    · rw [decide_eq_false (by omega), Bool.and_false]

/-- R69: the must-be-zero bits of a `SETIN`, field by field. -/
theorem hasSetinBits_iff (w : StimulusWord) : hasSetinBits w ↔
    ¬ (w.extractLsb' 32 32 = 0#32 ∧ w.extractLsb' 24 4 = 0#4 ∧ w.extractLsb' 3 13 = 0#13) := by
  have hm : 0xFFFFFFFF0F00FFF8#64 = fieldMask 32 32 ||| (fieldMask 24 4 ||| fieldMask 3 13) := by decide
  rw [hasSetinBits, hm, BitVec.and_or_distrib_left, BitVec.and_or_distrib_left, ← and_fieldMask_eq_zero_iff,
    ← and_fieldMask_eq_zero_iff, ← and_fieldMask_eq_zero_iff, ← BitVec.or_eq_zero_iff, ← BitVec.or_eq_zero_iff]
  rfl

/-- R69: a word without operand bits is its kind and nothing else. -/
theorem hasOperandBits_iff_ne {w : StimulusWord} {k : BitVec 4} (hk : fieldKind w = k) :
    hasOperandBits w ↔ w ≠ k.setWidth 64 <<< 28 := by
  have hm : 0xFFFFFFFF0FFFFFFF#64 = fieldMask 32 32 ||| fieldMask 0 28 := by decide
  have hz : w &&& 0xFFFFFFFF0FFFFFFF#64 = 0#64 ↔ w.extractLsb' 32 32 = 0#32 ∧ w.extractLsb' 0 28 = 0#28 := by
    rw [hm, BitVec.and_or_distrib_left, BitVec.or_eq_zero_iff, and_fieldMask_eq_zero_iff, and_fieldMask_eq_zero_iff]
  refine not_congr (hz.trans ?_)
  subst hk
  simp only [fieldKind, ← BitVec.toNat_inj, BitVec.extractLsb'_toNat, BitVec.toNat_setWidth, BitVec.toNat_shiftLeft,
    BitVec.toNat_ofNat, Nat.shiftRight_eq_div_pow, Nat.shiftLeft_eq]
  omega

/-! ### The decoder kind by kind (R64) -/

theorem decode_of_kind_zero {w : StimulusWord} (hk : fieldKind w = 0) : decode w = .ok (decodeTxn w) := by
  simp [decode, hk]

theorem decode_of_kind_one {w : StimulusWord} (hk : fieldKind w = 1) :
    decode w = decodeExact w 0x10000000#64 .render := by
  simp [decode, hk]

theorem decode_of_kind_two {w : StimulusWord} (hk : fieldKind w = 2) : decode w = decodeSetin w := by
  simp [decode, hk]

theorem decode_of_kind_three {w : StimulusWord} (hk : fieldKind w = 3) :
    decode w = decodeExact w 0x30000000#64 .reset := by
  simp [decode, hk]

theorem decode_of_kind_four {w : StimulusWord} (hk : fieldKind w = 4) : decode w = decodeSnd w := by
  simp [decode, hk]

theorem decode_of_five_le_kind {w : StimulusWord} (hk : 5 ≤ (fieldKind w).toNat) :
    decode w = .error (.reservedKind (fieldKind w)) := by
  unfold decode
  split
  case h_6 => rfl
  all_goals omega

theorem fieldKind_cases (w : StimulusWord) : fieldKind w = 0 ∨ fieldKind w = 1 ∨ fieldKind w = 2 ∨ fieldKind w = 3
    ∨ fieldKind w = 4 ∨ 5 ≤ (fieldKind w).toNat := by
  generalize fieldKind w = k
  revert k
  decide

/-! ### What is refused, by the bits of the word -/

theorem isReadWriteTogether_decodeMemRead (cyc : Cycles) (a : Addr) (d : Byte) :
    isReadWriteTogether (decodeMemRead cyc a d) = false := by
  unfold decodeMemRead
  simp only []
  repeat' split
  all_goals rfl

theorem isReadWriteTogether_decodeMemWrite (cyc : Cycles) (a : Addr) (d : Byte) :
    isReadWriteTogether (decodeMemWrite cyc a d) = false := by
  unfold decodeMemWrite
  simp only []
  repeat' split
  all_goals rfl

/-- R68, R80: of the `TXN` words, those with `RD = WR = 1`. -/
theorem isReadWriteTogether_decodeTxn (w : StimulusWord) :
    isReadWriteTogether (decodeTxn w) = (fieldRd w && fieldWr w) := by
  unfold decodeTxn
  simp only []
  split
  case h_5 hr hw hi => simp [hr, hw, isReadWriteTogether_decodeMemRead]
  case h_6 hr hw hi => simp [hr, hw, isReadWriteTogether_decodeMemWrite]
  all_goals simp [isReadWriteTogether, *]

/-- R68, R111: of the `SNDTXN` words, those with `RD = WR = 1`. -/
theorem isRefusal_decodeSnd (w : StimulusWord) : isRefusal (decodeSnd w) = (fieldRd w && fieldWr w) := by
  unfold decodeSnd
  split <;> simp [isReadWriteTogether, *]

/-- R69: a command is refused for every word but its own. -/
theorem isRefusal_decodeExact_iff (w x : StimulusWord) {i : Instr} (hi : isReadWriteTogether i = false) :
    isRefusal (decodeExact w x i) = true ↔ w ≠ x := by
  unfold decodeExact
  split <;> simp [*]

/-- R61, R69: a `SETIN` is refused for a must-be-zero bit and for `SEL` 5 to 7. -/
theorem isRefusal_decodeSetin_iff (w : StimulusWord) :
    isRefusal (decodeSetin w) = true ↔ hasSetinBits w ∨ 5 ≤ (fieldSel w).toNat := by
  rw [hasSetinBits_iff]
  unfold decodeSetin
  split
  case isFalse h => simp [h]
  case isTrue h =>
    rw [or_iff_right (not_not_intro h)]
    split
    case h_6 h0 h1 h2 h3 h4 =>
      have hsel : 5 ≤ (fieldSel w).toNat := by
        simp only [imp_false] at h0 h1 h2 h3 h4
        omega
      simp [hsel]
    all_goals simp [isReadWriteTogether, *]

/-- R68, R69: the decoded stimulus is refused exactly when the word is reserved by its bits. -/
theorem isRefusal_decode_iff (w : StimulusWord) : isRefusal (decode w) = true ↔ Reserved w := by
  rcases fieldKind_cases w with hk | hk | hk | hk | hk | hk
  · simp [decode_of_kind_zero hk, isReadWriteTogether_decodeTxn, Reserved, hk]
  · rw [decode_of_kind_one hk, isRefusal_decodeExact_iff _ _ rfl]
    exact (hasOperandBits_iff_ne hk).symm.trans (by simp [Reserved, hk])
  · rw [decode_of_kind_two hk, isRefusal_decodeSetin_iff]
    simp [Reserved, hk]
  · rw [decode_of_kind_three hk, isRefusal_decodeExact_iff _ _ rfl]
    exact (hasOperandBits_iff_ne hk).symm.trans (by simp [Reserved, hk])
  · simp [decode_of_kind_four hk, isRefusal_decodeSnd, Reserved, hk]
  · simp [decode_of_five_le_kind hk, Reserved, hk]

theorem handle_refused_iff (w : StimulusWord) (s : State) : (∃ r, handle w s = .refused r) ↔ Reserved w :=
  (handle_refused_iff_isRefusal w s).trans (isRefusal_decode_iff w)

/-- Settles O7: `Fault` has no constructor, and each case of `step_cases` decides both sides of the equivalence. -/
theorem refusedExactlyWhenReserved : Obligations.RefusedExactlyWhenReserved := by
  intro s
  refine ⟨nofun, ?_⟩
  rcases step_cases s with ⟨hc, hs⟩ | ⟨hc, hp, hs⟩ | ⟨hc, w, ws, hp, hs⟩
  · simp [hs, hc]
  · simp [hs, hc, hp]
  · simp [hs, hc, hp, handle_refused_iff]

end Sys2Proof.Machine

/-! ## Proofs: the state, what a stimulus writes and what every step keeps (O8, O9, O10, O15, O45, O46, O47, O55) -/

namespace Sys2Proof.Machine

/-! ### What a stimulus writes

`exec` differs from stimulus to stimulus only in `effectOf`; the accumulator and the response are common to all. The frame
statements follow from `exec_eq_next` and the fields that `effectOf` leaves alone. -/

/-- What a stimulus writes beside the accumulator and the response. -/
def effectOf : Instr → State → State
  | .palWrE _ a d, s => palStore false a d s
  | .palWrO _ a d, s => palStore true a d s
  | .imaskWr _ d, s => s.setImask d
  | .romlWr _ a d, s => s.setRam (memWrite s a d).ram
  | .romhWr _ a d, s => s.setRam (memWrite s a d).ram
  | .ramWr _ a d, s => s.setRam (memWrite s a d).ram
  | .unmapWr _ a d, s => s.setRam (memWrite s a d).ram
  | .render, s => renderFrame s
  | .setinJoy1 v, s => s.setJoy1 v
  | .setinJoy2 v, s => s.setJoy2 v
  | .setinSys v, s => s.setSys v
  | .setinDip1 v, s => s.setDip1 v
  | .setinDip2 v, s => s.setDip2 v
  | .reset, s => resetFrom s
  | _, s => s

/-- The accumulator that the effect of a stimulus finds: a `TXN` has advanced it (R76). -/
def accOf (i : Instr) (s : State) : Nat :=
  match txnCycles i with
  | some cyc => accAfter s cyc
  | none => s.acc

theorem accOf_of_txnCycles_none {i : Instr} (h : txnCycles i = none) (s : State) : accOf i s = s.acc := by
  simp [accOf, h]

/-- R22: the accumulator stays in range. -/
theorem accOf_lt_period {s : State} (h : s.acc < s.cfg.period) (i : Instr) : accOf i s < s.cfg.period := by
  unfold accOf
  split
  · exact Nat.mod_lt _ (Nat.zero_lt_of_lt h)
  · exact h

/-- R43: the resolver writes RAM only. -/
theorem memWrite_eq_setRam (s : State) (a : Addr) (v : Byte) : memWrite s a v = s.setRam (memWrite s a v).ram := by
  unfold memWrite
  split <;> rfl

theorem resolverWrite_eq (cyc : Cycles) (a : Addr) (d : Byte) (s : State) :
    resolverWrite cyc a d s =
      ((s.setAcc (accAfter s cyc)).setRam (memWrite (s.setAcc (accAfter s cyc)) a d).ram).setResponse
        (writeReply s cyc false a d) := by
  rw [resolverWrite, busWrite_eq, ← memWrite_eq_setRam]

/-- Everything a stimulus can do: the timing step of a `TXN`, the effect, the response. -/
theorem exec_eq_next {i : Instr} {s t : State} (h : exec i s = .next t) :
    ∃ r, t = (effectOf i (s.setAcc (accOf i s))).setResponse r := by
  cases i
  case rsvdRdwr => exact nomatch h
  all_goals cases h
  case palWrE => exact ⟨_, busWrite_eq _ _ _ _ _ _⟩
  case palWrO => exact ⟨_, busWrite_eq _ _ _ _ _ _⟩
  case imaskWr => exact ⟨_, busWrite_eq _ _ _ _ _ _⟩
  case romlWr cyc a d => exact ⟨_, resolverWrite_eq cyc a d s⟩
  case romhWr cyc a d => exact ⟨_, resolverWrite_eq cyc a d s⟩
  case ramWr cyc a d => exact ⟨_, resolverWrite_eq cyc a d s⟩
  case unmapWr cyc a d => exact ⟨_, resolverWrite_eq cyc a d s⟩
  all_goals exact ⟨_, rfl⟩

/-! ### Who writes the configuration, the queue, the latches, the mask and the accumulator -/

theorem effectOf_cfg (i : Instr) (s : State) : (effectOf i s).cfg = s.cfg := by cases i <;> rfl

theorem effectOf_pending (i : Instr) (s : State) : (effectOf i s).pending = s.pending := by cases i <;> rfl

/-- Settles O10: neither the effect nor the common part of a stimulus writes either field. -/
theorem configurationIsNeverWritten : Obligations.ConfigurationIsNeverWritten := by
  intro i s t h
  obtain ⟨r, rfl⟩ := exec_eq_next h
  exact ⟨effectOf_cfg i _, effectOf_pending i _⟩

/-- R14, R16-R18: of the effects only a `SETIN` and `RESET` write a latch, and a `SETIN` writes its own. -/
theorem effectOf_latches {i : Instr} (hreset : i ≠ .reset) (s : State) :
    ((∀ v, i ≠ .setinJoy1 v) → (effectOf i s).joy1 = s.joy1) ∧ ((∀ v, i ≠ .setinJoy2 v) → (effectOf i s).joy2 = s.joy2)
      ∧ ((∀ v, i ≠ .setinSys v) → (effectOf i s).sys = s.sys) ∧ ((∀ v, i ≠ .setinDip1 v) → (effectOf i s).dip1 = s.dip1)
      ∧ ((∀ v, i ≠ .setinDip2 v) → (effectOf i s).dip2 = s.dip2) := by
  -- With the fields of `s` as variables, `rfl` has only fields to compare and no whole states.
  cases s
  cases i
  case reset => exact absurd rfl hreset
  case setinJoy1 v => exact ⟨fun hv => absurd rfl (hv v), fun _ => rfl, fun _ => rfl, fun _ => rfl, fun _ => rfl⟩
  case setinJoy2 v => exact ⟨fun _ => rfl, fun hv => absurd rfl (hv v), fun _ => rfl, fun _ => rfl, fun _ => rfl⟩
  case setinSys v => exact ⟨fun _ => rfl, fun _ => rfl, fun hv => absurd rfl (hv v), fun _ => rfl, fun _ => rfl⟩
  case setinDip1 v => exact ⟨fun _ => rfl, fun _ => rfl, fun _ => rfl, fun hv => absurd rfl (hv v), fun _ => rfl⟩
  case setinDip2 v => exact ⟨fun _ => rfl, fun _ => rfl, fun _ => rfl, fun _ => rfl, fun hv => absurd rfl (hv v)⟩
  all_goals exact ⟨fun _ => rfl, fun _ => rfl, fun _ => rfl, fun _ => rfl, fun _ => rfl⟩

/-- Settles O45: neither the timing step nor the response writes a latch. -/
theorem latchesAreWrittenOnlyByTheHost : Obligations.LatchesAreWrittenOnlyByTheHost := by
  intro i s t h hreset
  obtain ⟨r, rfl⟩ := exec_eq_next h
  exact effectOf_latches hreset (s.setAcc (accOf i s))

theorem effectOf_imask {i : Instr} (hreset : i ≠ .reset) (hmask : ∀ cyc d, i ≠ .imaskWr cyc d) (s : State) :
    (effectOf i s).imask = s.imask := by
  cases i
  case reset => exact absurd rfl hreset
  case imaskWr cyc d => exact absurd rfl (hmask cyc d)
  all_goals rfl

theorem effectOf_acc {i : Instr} (hreset : i ≠ .reset) (s : State) : (effectOf i s).acc = s.acc := by
  cases i
  case reset => exact absurd rfl hreset
  all_goals rfl

/-- Settles O46: the effect of `IMASK.WR` alone writes the mask, the timing step alone the accumulator. -/
theorem maskAndAccumulatorWriters : Obligations.MaskAndAccumulatorWriters := by
  intro i s t h hreset
  obtain ⟨r, rfl⟩ := exec_eq_next h
  refine ⟨fun hmask => effectOf_imask hreset hmask _, fun htxn => ?_⟩
  exact (effectOf_acc hreset _).trans (accOf_of_txnCycles_none htxn s)

/-! ### Who writes the memories -/

theorem memWrite_romLow (s : State) {a : Addr} (v : Byte) (h : a.isRomLow = true) : memWrite s a v = s := by
  simp only [Addr.isRomLow, decide_eq_true_eq] at h
  exact memWrite_outside s v (by omega)

theorem memWrite_romHigh (s : State) {a : Addr} (v : Byte) (h : a.isRomHigh = true) : memWrite s a v = s := by
  simp only [Addr.isRomHigh, Bool.and_eq_true, decide_eq_true_eq] at h
  exact memWrite_outside s v (by omega)

theorem memWrite_unmapped (s : State) {a : Addr} (v : Byte) (h : a.isUnmapped = true) : memWrite s a v = s := by
  simp only [Addr.isUnmapped, Bool.or_eq_true, Bool.and_eq_true, decide_eq_true_eq] at h
  exact memWrite_outside s v (by omega)

theorem effectOf_pal {i : Instr} (hreset : i ≠ .reset) (hpal : ∀ cyc a d, i ≠ .palWrE cyc a d ∧ i ≠ .palWrO cyc a d)
    (s : State) : (effectOf i s).pal = s.pal := by
  cases i
  case reset => exact absurd rfl hreset
  case palWrE cyc a d => exact absurd rfl (hpal cyc a d).1
  case palWrO cyc a d => exact absurd rfl (hpal cyc a d).2
  all_goals rfl

theorem effectOf_ram {i : Instr} (hwf : i.wellFormed = true) (hreset : i ≠ .reset)
    (hram : ∀ cyc a d, i ≠ .palWrE cyc a d ∧ i ≠ .palWrO cyc a d ∧ i ≠ .ramWr cyc a d) (s : State) :
    (effectOf i s).ram = s.ram := by
  cases i
  case reset => exact absurd rfl hreset
  case palWrE cyc a d => exact absurd rfl (hram cyc a d).1
  case palWrO cyc a d => exact absurd rfl (hram cyc a d).2.1
  case ramWr cyc a d => exact absurd rfl (hram cyc a d).2.2
  case romlWr cyc a d => exact congrArg (fun t => t.ram) (memWrite_romLow s d hwf)
  case romhWr cyc a d => exact congrArg (fun t => t.ram) (memWrite_romHigh s d hwf)
  case unmapWr cyc a d => exact congrArg (fun t => t.ram) (memWrite_unmapped s d hwf)
  all_goals rfl

theorem effectOf_frame {i : Instr} (hreset : i ≠ .reset) (hrender : i ≠ .render) (s : State) :
    (effectOf i s).fb = s.fb ∧ (effectOf i s).fbValid = s.fbValid := by
  cases i
  case reset => exact absurd rfl hreset
  case render => exact absurd rfl hrender
  all_goals exact ⟨rfl, rfl⟩

theorem effectOf_sndRam_fbDraw {i : Instr} (hreset : i ≠ .reset) (s : State) :
    (effectOf i s).sndRam = s.sndRam ∧ (effectOf i s).fbDraw = s.fbDraw := by
  cases i
  case reset => exact absurd rfl hreset
  all_goals exact ⟨rfl, rfl⟩

/-- Settles O47: one frame lemma of the effect per memory. -/
theorem memoryWriters : Obligations.MemoryWriters := by
  intro i s t hwf h hreset
  obtain ⟨r, rfl⟩ := exec_eq_next h
  exact ⟨fun hpal => effectOf_pal hreset hpal _, fun hram => effectOf_ram hwf hreset hram _,
    fun hrender => effectOf_frame hreset hrender _, effectOf_sndRam_fbDraw hreset _⟩

/-! ### The timing step keeps the range -/

theorem advance_acc (c : Nat) (s : State) : (advance c s).2.acc = (s.acc + c) % s.cfg.period := rfl

/-- Settles O15: below one period both summands are their own remainders. -/
theorem wrapKeepsTheRangeAndIsOneSubtraction : Obligations.WrapKeepsTheRangeAndIsOneSubtraction := by
  intro c s hacc
  refine ⟨advance_acc c s, Nat.mod_lt _ (Nat.zero_lt_of_lt hacc), fun hc => ?_⟩
  rw [advance_acc, Nat.add_mod_eq_ite, Nat.mod_eq_of_lt hacc, Nat.mod_eq_of_lt hc]

/-! ### Colours -/

theorem pairColor_eq_append (e o : Byte) :
    pairColor e o = (0xFF#8 ++ rep4 (loNibble o)) ++ (rep4 (hiNibble e) ++ rep4 (loNibble e)) :=
  BitVec.append_assoc

/-- R24, R25: the colour of a pair of bytes is opaque. -/
theorem alpha_pairColor (e o : Byte) : alpha (pairColor e o) = 0xFF := by
  rw [alpha, pairColor_eq_append, BitVec.extractLsb'_append_eq_of_le (by decide)]
  exact BitVec.extractLsb'_append_eq_left

/-- R113: encoding an even byte replaces the even byte of the pair. -/
theorem palEnc_even_pairColor (e o b : Byte) : palEnc (pairColor e o) false b = pairColor b o := by
  have hblue : (pairColor e o).extractLsb' 16 8 = rep4 (loNibble o) := by
    rw [pairColor_eq_append, BitVec.extractLsb'_append_eq_of_le (by decide)]
    exact BitVec.extractLsb'_append_eq_right
  rw [palEnc, if_neg Bool.false_ne_true, hblue, pairColor]

/-- R113: encoding an odd byte replaces the odd byte of the pair. -/
theorem palEnc_odd_pairColor (e o b : Byte) : palEnc (pairColor e o) true b = pairColor e b := by
  have hgreenRed : (pairColor e o).extractLsb' 0 16 = rep4 (hiNibble e) ++ rep4 (loNibble e) := by
    rw [pairColor_eq_append]
    exact BitVec.extractLsb'_append_eq_right
  rw [palEnc, if_pos rfl, hgreenRed, pairColor_eq_append]

/-- R9: the background fill of a well-formed configuration is opaque. -/
theorem alpha_bgFill {cfg : Config} (h : configWellFormed cfg = true) : alpha cfg.bgFill = 0xFF := by
  have hfill := List.all_eq_true.mp h (alpha cfg.bgFill == 0xFF) (by simp [alpha])
  exact beq_iff_eq.mp hfill

/-! ### A rendered frame -/

/-- R137: after `RENDER` a sample is the background fill or an entry of the palette. -/
theorem sample_renderFrame_cases (s : State) {i : Nat} (hi : i < 65536) :
    sample (renderFrame s) i = s.cfg.bgFill ∨ ∃ j < 128, sample (renderFrame s) i = palAt s j := by
  have hs : sample (renderFrame s) i = readCell s.cfg.bgFill (fgPass s (bgPass s s.fb)) i := rfl
  obtain ⟨hlit, hclear⟩ := readCell_fgPass s (bgPass s s.fb) i hi
  by_cases h : Lit s i
  · refine .inr ⟨_, ?_, hs.trans (hlit h)⟩
    rw [← penEntry_eq]
    exact penEntry_lt _ _
  · exact .inl (by rw [hs, hclear h, readCell_bgPass s _ _ i hi])

theorem Inv.alpha_palAt {s : State} (h : Inv s) {i : Nat} (hi : i < 128) : alpha (palAt s i) = 0xFF := by
  rw [h.palMatchesRam i hi, alpha_pairColor]

/-- R142: every sample of a rendered frame is opaque. -/
theorem alpha_sample_renderFrame {s : State} (hc : configWellFormed s.cfg = true) (h : Inv s) {i : Nat} (hi : i < 65536) :
    alpha (sample (renderFrame s) i) = 0xFF := by
  rcases sample_renderFrame_cases s hi with hs | ⟨j, hj, hs⟩
  · rw [hs, alpha_bgFill hc]
  · rw [hs, h.alpha_palAt hj]

/-- Settles O55: `RENDER` answers the rendered frame. -/
theorem renderedFrameIsOpaque : Obligations.RenderedFrameIsOpaque := by
  intro s t hc h hexec i hi
  obtain ⟨r, rfl⟩ := exec_eq_next hexec
  exact alpha_sample_renderFrame hc h hi

/-! ### The invariant of a cleared state -/

/-- R33: a state whose accumulator and memories are cleared and whose frame is invalid meets the invariant. -/
theorem Inv.of_cleared {s : State} (hperiod : 0 < s.cfg.period) (hacc : s.acc = 0) (hram : s.ram = [])
    (hsnd : s.sndRam = []) (hpal : s.pal = []) (hfb : s.fb = []) (hvalid : s.fbValid = false) : Inv s where
  accInRange := hacc ▸ hperiod
  ramCanonical := hram ▸ Memory.wf_nil _ _
  sndRamCanonical := hsnd ▸ Memory.wf_nil _ _
  palCanonical := hpal ▸ Memory.wf_nil _ _
  fbCanonical := hfb ▸ Memory.wf_nil _ _
  palMatchesRam i _ := by
    rw [palAt, ramAt, ramAt, hpal, hram]
    exact (by decide : palDefault = pairColor ramDefault ramDefault)
  fbOpaque hv := by simp [hvalid] at hv

/-- Settles O8: the default period is positive, and everything is cleared. -/
theorem invariantHoldsAtReset : Obligations.InvariantHoldsAtReset :=
  Inv.of_cleared (by decide) rfl rfl rfl rfl rfl rfl

theorem Inv.resetFrom {s : State} (h : Inv s) : Inv (resetFrom s) :=
  Inv.of_cleared (Nat.zero_lt_of_lt h.accInRange) rfl rfl rfl rfl rfl rfl

/-! ### What keeps the invariant -/

/-- The invariant reads only the configuration, the accumulator, the memories and `FB_VALID`. -/
theorem Inv.of_same_memories {s t : State} (h : Inv s) (hacc : t.acc < s.cfg.period) (hcfg : t.cfg = s.cfg)
    (hram : t.ram = s.ram) (hsnd : t.sndRam = s.sndRam) (hpal : t.pal = s.pal) (hfb : t.fb = s.fb)
    (hvalid : t.fbValid = s.fbValid) : Inv t where
  accInRange := hcfg ▸ hacc
  ramCanonical := hram ▸ h.ramCanonical
  sndRamCanonical := by rw [hcfg, hsnd]; exact h.sndRamCanonical
  palCanonical := hpal ▸ h.palCanonical
  fbCanonical := by rw [hcfg, hfb]; exact h.fbCanonical
  palMatchesRam i hi := by
    rw [palAt, ramAt, ramAt, hpal, hram]
    exact h.palMatchesRam i hi
  fbOpaque hv i hi := by
    have hv' : s.fbValid = true := hvalid ▸ hv
    rw [sample_of_valid t i hv, hcfg, hfb, ← sample_of_valid s i hv']
    exact h.fbOpaque hv' i hi

/-- R103: a byte outside the palette region may be stored. -/
theorem Inv.ramPut {s : State} (h : Inv s) {j : Nat} (hj : j < 8192) (hout : j < 0x1C00 ∨ 0x1D00 ≤ j) (v : Byte) :
    Inv (ramPut s j v) where
  accInRange := h.accInRange
  ramCanonical := Memory.wf_writeCell v h.ramCanonical hj
  sndRamCanonical := h.sndRamCanonical
  palCanonical := h.palCanonical
  fbCanonical := h.fbCanonical
  palMatchesRam i hi := by
    rw [palAt_ramPut, ramAt_ramPut, ramAt_ramPut, if_neg (by omega), if_neg (by omega)]
    exact h.palMatchesRam i hi
  fbOpaque := h.fbOpaque

theorem Inv.memWrite_plainRam {s : State} (h : Inv s) {a : Addr} (ha : a.isPlainRam = true) (v : Byte) :
    Inv (memWrite s a v) := by
  simp only [Addr.isPlainRam, Bool.or_eq_true, Bool.and_eq_true, decide_eq_true_eq] at ha
  rw [memWrite_ram s v (by omega) (by omega)]
  exact h.ramPut (by omega) (by omega) v

/-- A write by the resolver is a write of RAM. -/
theorem Inv.of_memWrite {s : State} {a : Addr} {v : Byte} (h : Inv (memWrite s a v)) :
    Inv (s.setRam (memWrite s a v).ram) := memWrite_eq_setRam s a v ▸ h

/-! ### A palette write -/

/-- R66: the RAM byte of a palette address is that of its entry and its parity. -/
theorem ramIdx_of_isPalette {a : Addr} (h : a.isPalette = true) :
    ramIdx a.toNat = 0x1C00 + 2 * palIdx a + (a.getLsbD 0).toNat := by
  have hparity : a.toNat % 2 = (a.getLsbD 0).toNat := by
    rw [BitVec.getLsbD, Nat.testBit_zero]
    rcases Nat.mod_two_eq_zero_or_one a.toNat with hm | hm <;> simp [hm]
  simp only [Addr.isPalette, Bool.and_eq_true, decide_eq_true_eq] at h
  rw [ramIdx_of_inRange (by omega) (by omega), palIdx]
  omega

theorem ramAt_palStore (odd : Bool) (a : Addr) (d : Byte) (s : State) (j : Nat) :
    ramAt (palStore odd a d s) j = if j = ramIdx a.toNat then d else ramAt s j := by
  rw [palStore, ramAt_palPut, ramAt_ramPut]

theorem palAt_palStore (odd : Bool) (a : Addr) (d : Byte) (s : State) (j : Nat) :
    palAt (palStore odd a d s) j = if j = palIdx a then palEnc (palAt s j) odd d else palAt s j := by
  rw [palStore, palAt_palPut, palAt_ramPut, palAt_ramPut]
  split
  case isTrue hj => rw [hj]
  case isFalse => rfl

/-- R25, R82, R83: a palette write stores the byte and its colour together. -/
theorem Inv.palStore {s : State} (h : Inv s) {a : Addr} (ha : a.isPalette = true) (d : Byte) :
    Inv (palStore (a.getLsbD 0) a d s) where
  accInRange := h.accInRange
  ramCanonical := Memory.wf_writeCell d h.ramCanonical (ramIdx_lt _)
  sndRamCanonical := h.sndRamCanonical
  palCanonical := Memory.wf_writeCell _ h.palCanonical (palIdx_lt ha)
  fbCanonical := h.fbCanonical
  palMatchesRam i hi := by
    rw [palAt_palStore, ramAt_palStore, ramAt_palStore, ramIdx_of_isPalette ha, h.palMatchesRam i hi]
    by_cases hidx : i = palIdx a
    · cases a.getLsbD 0 <;> simp [hidx, palEnc_even_pairColor, palEnc_odd_pairColor]
    · have hparity := (a.getLsbD 0).toNat_lt
      rw [if_neg hidx, if_neg (by omega), if_neg (by omega)]
  fbOpaque := h.fbOpaque

/-! ### A step -/

theorem Inv.renderFrame {s : State} (h : Inv s) (hc : configWellFormed s.cfg = true) : Inv (renderFrame s) where
  accInRange := h.accInRange
  ramCanonical := h.ramCanonical
  sndRamCanonical := h.sndRamCanonical
  palCanonical := h.palCanonical
  fbCanonical := wf_fgPass s _ (wf_bgPass s _ h.fbCanonical)
  palMatchesRam := h.palMatchesRam
  fbOpaque _ _ hi := alpha_sample_renderFrame hc h hi

/-- The effect of a well-formed stimulus keeps the invariant. -/
theorem Inv.effectOf {s : State} (h : Inv s) (hc : configWellFormed s.cfg = true) {i : Instr} (hwf : i.wellFormed = true) :
    Inv (effectOf i s) := by
  cases i
  case palWrE cyc a d =>
    obtain ⟨ha, heven⟩ : a.isPalette = true ∧ a.getLsbD 0 = false := by simpa [Instr.wellFormed] using hwf
    have hkeep := h.palStore ha d
    rwa [heven] at hkeep
  case palWrO cyc a d =>
    obtain ⟨ha, hodd⟩ : a.isPalette = true ∧ a.getLsbD 0 = true := by simpa [Instr.wellFormed] using hwf
    have hkeep := h.palStore ha d
    rwa [hodd] at hkeep
  case ramWr cyc a d => exact Inv.of_memWrite (h.memWrite_plainRam hwf d)
  case romlWr cyc a d => exact Inv.of_memWrite (by rwa [memWrite_romLow s d hwf])
  case romhWr cyc a d => exact Inv.of_memWrite (by rwa [memWrite_romHigh s d hwf])
  case unmapWr cyc a d => exact Inv.of_memWrite (by rwa [memWrite_unmapped s d hwf])
  case render => exact h.renderFrame hc
  case reset => exact h.resetFrom
  all_goals exact h.of_same_memories h.accInRange rfl rfl rfl rfl rfl rfl

theorem Inv.exec_next {i : Instr} {s t : State} (h : Inv s) (hc : configWellFormed s.cfg = true) (hwf : i.wellFormed = true)
    (hexec : exec i s = .next t) : Inv t := by
  obtain ⟨r, rfl⟩ := exec_eq_next hexec
  have htimed : Inv (s.setAcc (accOf i s)) :=
    h.of_same_memories (accOf_lt_period h.accInRange i) rfl rfl rfl rfl rfl rfl
  have heffect := htimed.effectOf hc hwf
  exact heffect.of_same_memories heffect.accInRange rfl rfl rfl rfl rfl rfl

/-! ### What decodes is well formed (R64) -/

theorem decodeTxn_wellFormed (w : StimulusWord) : (decodeTxn w).wellFormed = true := by
  unfold decodeTxn
  simp only []
  split
  case h_5 => exact decodeMemRead_wellFormed _ _ _
  case h_6 => exact decodeMemWrite_wellFormed _ _ _
  all_goals rfl

theorem decodeExact_eq_ok {w x : StimulusWord} {i j : Instr} (h : decodeExact w x i = .ok j) : i = j := by
  unfold decodeExact at h
  split at h
  case isTrue => exact Except.ok.inj h
  case isFalse => exact nomatch h

theorem decodeSetin_wellFormed {w : StimulusWord} {i : Instr} (h : decodeSetin w = .ok i) : i.wellFormed = true := by
  unfold decodeSetin at h
  split at h
  case isFalse => exact nomatch h
  case isTrue =>
    split at h <;> cases h
    all_goals rfl

theorem decodeSnd_wellFormed {w : StimulusWord} {i : Instr} (h : decodeSnd w = .ok i) : i.wellFormed = true := by
  unfold decodeSnd at h
  split at h <;> cases h
  all_goals rfl

theorem decode_wellFormed {w : StimulusWord} {i : Instr} (h : decode w = .ok i) : i.wellFormed = true := by
  rcases fieldKind_cases w with hk | hk | hk | hk | hk | hk
  · rw [decode_of_kind_zero hk] at h
    exact Except.ok.inj h ▸ decodeTxn_wellFormed w
  · rw [decode_of_kind_one hk] at h
    exact decodeExact_eq_ok h ▸ rfl
  · exact decodeSetin_wellFormed (decode_of_kind_two hk ▸ h)
  · rw [decode_of_kind_three hk] at h
    exact decodeExact_eq_ok h ▸ rfl
  · exact decodeSnd_wellFormed (decode_of_kind_four hk ▸ h)
  · rw [decode_of_five_le_kind hk] at h
    exact nomatch h

theorem Inv.handle_next {w : StimulusWord} {s t : State} (h : Inv s) (hc : configWellFormed s.cfg = true)
    (hhandle : handle w s = .next t) : Inv t := by
  cases hd : decode w with
  | error e => simp [handle, hd] at hhandle
  | ok i => exact h.exec_next hc (decode_wellFormed hd) (handle_of_decode_ok hd s ▸ hhandle)

/-- Settles O9: a step changes nothing, or it handles a stimulus after taking it off the queue, which the invariant does not
read. -/
theorem everyStepKeepsTheInvariant : Obligations.EveryStepKeepsTheInvariant := by
  intro s t h ht
  rcases step_cases s with ⟨_, hs⟩ | ⟨_, _, hs⟩ | ⟨hc, w, ws, _, hs⟩ <;> rw [hs] at ht
  · exact nomatch ht
  · exact Host.Outcome.next.inj ht ▸ h
  · have hpopped : Inv (s.setPending ws) := h.of_same_memories h.accInRange rfl rfl rfl rfl rfl rfl
    exact hpopped.handle_next hc ht

end Sys2Proof.Machine

/-! ## Proofs: the address map, the resolver, reads (O33, O36, O37, O38, O39, O48) -/

namespace Sys2Proof

/-! ### The rows of the address map (R40)

`isPort` and the address classes of Sys2Proof/WellFormed.lean cover the address space, so a statement about every address is
a case split by `region_cases`; the lemma of each row says what the decoder answers there. -/

/-- The addresses of the ports and the sound latch, 0xB000-0xB005 and 0xB800. -/
def Addr.isPort (a : Addr) : Bool := (0xB000 ≤ a.toNat && a.toNat ≤ 0xB005) || a.toNat == 0xB800

theorem Addr.isPalette_iff {a : Addr} : a.isPalette = true ↔ 0x9C00 ≤ a.toNat ∧ a.toNat < 0x9D00 := by
  simp [Addr.isPalette]

theorem Addr.isPlainRam_iff {a : Addr} :
    a.isPlainRam = true ↔ (0x8000 ≤ a.toNat ∧ a.toNat ≤ 0x9BFF) ∨ 0x9D00 ≤ a.toNat ∧ a.toNat ≤ 0x9FFF := by
  simp [Addr.isPlainRam]

theorem Addr.isRomLow_iff {a : Addr} : a.isRomLow = true ↔ a.toNat ≤ 0x7FFF := by
  simp [Addr.isRomLow]

theorem Addr.isRomHigh_iff {a : Addr} : a.isRomHigh = true ↔ 0xC000 ≤ a.toNat ∧ a.toNat ≤ 0xDFFF := by
  simp [Addr.isRomHigh]

theorem Addr.isUnmapped_iff {a : Addr} : a.isUnmapped = true ↔ (0xA000 ≤ a.toNat ∧ a.toNat ≤ 0xAFFF)
    ∨ (0xB006 ≤ a.toNat ∧ a.toNat ≤ 0xB7FF) ∨ (0xB801 ≤ a.toNat ∧ a.toNat ≤ 0xBFFF) ∨ 0xE000 ≤ a.toNat := by
  simp [Addr.isUnmapped, or_assoc]

theorem Addr.region_cases (a : Addr) : a.isPort = true ∨ a.isPalette = true ∨ a.isPlainRam = true ∨ a.isRomLow = true
    ∨ a.isRomHigh = true ∨ a.isUnmapped = true := by
  simp only [Addr.isPort, Addr.isPalette_iff, Addr.isPlainRam_iff, Addr.isRomLow_iff, Addr.isRomHigh_iff,
    Addr.isUnmapped_iff, Bool.or_eq_true, Bool.and_eq_true, decide_eq_true_eq, beq_iff_eq]
  omega

theorem Addr.eq_of_isPort {a : Addr} (h : a.isPort = true) : a = 0xB000 ∨ a = 0xB001 ∨ a = 0xB002 ∨ a = 0xB003
    ∨ a = 0xB004 ∨ a = 0xB005 ∨ a = 0xB800 := by
  simp only [Addr.isPort, Bool.or_eq_true, Bool.and_eq_true, decide_eq_true_eq, beq_iff_eq] at h
  simp only [← BitVec.toNat_inj, BitVec.reduceToNat]
  omega

/-- The parity that tells `PAL.WR.O` from `PAL.WR.E`. -/
theorem Addr.getLsbD_zero (a : Addr) : a.getLsbD 0 = decide (a.toNat % 2 = 1) := Nat.testBit_zero _

section
variable {a : Addr} (cyc : Cycles) (d : Byte)

theorem decodeMemRead_of_isPalette (h : a.isPalette = true) : decodeMemRead cyc a d = .palRd cyc a d := by
  rw [Addr.isPalette_iff] at h
  simp only [decodeMemRead, if_pos h]

theorem decodeMemRead_of_isPlainRam (h : a.isPlainRam = true) : decodeMemRead cyc a d = .ramRd cyc a d := by
  rw [Addr.isPlainRam_iff] at h
  simp (disch := omega) only [decodeMemRead, if_pos, if_neg]

theorem decodeMemRead_of_isRomLow (h : a.isRomLow = true) : decodeMemRead cyc a d = .romlRd cyc a d := by
  rw [Addr.isRomLow_iff] at h
  simp (disch := omega) only [decodeMemRead, if_pos, if_neg]

theorem decodeMemRead_of_isRomHigh (h : a.isRomHigh = true) : decodeMemRead cyc a d = .romhRd cyc a d := by
  rw [Addr.isRomHigh_iff] at h
  simp (disch := omega) only [decodeMemRead, if_pos, if_neg]

theorem decodeMemRead_of_isUnmapped (h : a.isUnmapped = true) : decodeMemRead cyc a d = .unmapRd cyc a d := by
  rw [Addr.isUnmapped_iff] at h
  simp (disch := omega) only [decodeMemRead, if_neg]

theorem decodeMemWrite_of_isPalette (h : a.isPalette = true) :
    decodeMemWrite cyc a d = if a.getLsbD 0 then .palWrO cyc a d else .palWrE cyc a d := by
  rw [Addr.isPalette_iff] at h
  simp only [decodeMemWrite, if_pos h]

theorem decodeMemWrite_of_isPlainRam (h : a.isPlainRam = true) : decodeMemWrite cyc a d = .ramWr cyc a d := by
  rw [Addr.isPlainRam_iff] at h
  simp (disch := omega) only [decodeMemWrite, if_pos, if_neg]

theorem decodeMemWrite_of_isRomLow (h : a.isRomLow = true) : decodeMemWrite cyc a d = .romlWr cyc a d := by
  rw [Addr.isRomLow_iff] at h
  simp (disch := omega) only [decodeMemWrite, if_pos, if_neg]

theorem decodeMemWrite_of_isRomHigh (h : a.isRomHigh = true) : decodeMemWrite cyc a d = .romhWr cyc a d := by
  rw [Addr.isRomHigh_iff] at h
  simp (disch := omega) only [decodeMemWrite, if_pos, if_neg]

theorem decodeMemWrite_of_isUnmapped (h : a.isUnmapped = true) : decodeMemWrite cyc a d = .unmapWr cyc a d := by
  rw [Addr.isUnmapped_iff] at h
  simp (disch := omega) only [decodeMemWrite, if_neg]

end

end Sys2Proof

namespace Sys2Proof.Machine

/-! ### Indices -/

/-- Settles O39: both indices are remainders, and the base 0x8000 of RAM is a multiple of 8192. -/
theorem indicesAreContained : Obligations.IndicesAreContained := by
  refine ⟨fun _ _ _ => rfl, fun bank n k => ?_, ramIdx_lt, fun a hlo hhi => ?_⟩
  · rw [romRead, Nat.add_mod_left, romRead]
  · rw [ramIdx_of_inRange hlo hhi, BitVec.extractLsb'_toNat, Nat.shiftRight_zero]
    omega

/-! ### What a resolver transaction and a write without effect do -/

theorem resolverRead_eq (cyc : Cycles) (a : Addr) (s : State) : resolverRead cyc a s =
    { s with acc := accAfter s cyc, response := readReply s cyc false a (memRead s a) } :=
  busRead_eq cyc false a _ s

theorem noopWrite_eq (cyc : Cycles) (io : Bool) (a : Addr) (d : Byte) (s : State) : noopWrite cyc io a d s =
    { s with acc := accAfter s cyc, response := writeReply s cyc io a d } :=
  busWrite_eq cyc io a d _ s

/-- R43: where the resolver stores nothing, its write is one without effect. -/
theorem resolverWrite_eq_noopWrite {a : Addr} {d : Byte} (h : ∀ s, memWrite s a d = s) (cyc : Cycles) (s : State) :
    resolverWrite cyc a d s = noopWrite cyc false a d s :=
  congrArg (fun effect => busWrite cyc false a d effect s) (funext h)

/-- Settles O33: outside RAM the resolver stores nothing, and the I/O space maps nothing. -/
theorem writesOutsideRamAdvanceOnly : Obligations.WritesOutsideRamAdvanceOnly := by
  intro cyc a d s
  have hresolver (h : ∀ t, memWrite t a d = t) : resolverWrite cyc a d s =
      { s with acc := accAfter s cyc, response := writeReply s cyc false a d } :=
    (resolverWrite_eq_noopWrite h cyc s).trans (noopWrite_eq cyc false a d s)
  exact ⟨fun h => congrArg Host.Outcome.next (hresolver fun t => memWrite_romLow t d h),
    fun h => congrArg Host.Outcome.next (hresolver fun t => memWrite_romHigh t d h),
    fun h => congrArg Host.Outcome.next (hresolver fun t => memWrite_unmapped t d h),
    congrArg Host.Outcome.next (noopWrite_eq cyc true a d s)⟩

/-- Settles O36: the resolver answers the parameter; the data line is no input to it. -/
theorem unmappedReadAnswersTheParameter : Obligations.UnmappedReadAnswersTheParameter := by
  intro cyc a d s h
  rw [← memRead_unmapped s h]
  exact congrArg Host.Outcome.next (resolverRead_eq cyc a s)

/-! ### The read column of the address map (R40) -/

section
variable {a : Addr} (s : State) (d : Byte)

theorem mapRead_of_isPalette (h : a.isPalette = true) : mapRead s a d = ramAt s (a.toNat - 0x8000) := by
  rw [Addr.isPalette_iff] at h
  simp (disch := omega) only [mapRead, if_pos]

theorem mapRead_of_isPlainRam (h : a.isPlainRam = true) : mapRead s a d = memRead s a := by
  rw [Addr.isPlainRam_iff] at h
  rw [memRead_ram s (by omega) (by omega)]
  simp (disch := omega) only [mapRead, if_pos, if_neg]

theorem mapRead_of_isRomLow (h : a.isRomLow = true) : mapRead s a d = memRead s a := by
  rw [memRead_romLow s h]
  rw [Addr.isRomLow_iff] at h
  simp (disch := omega) only [mapRead, if_pos, if_neg]

theorem mapRead_of_isRomHigh (h : a.isRomHigh = true) : mapRead s a d = memRead s a := by
  rw [memRead_romHigh s h]
  rw [Addr.isRomHigh_iff] at h
  simp (disch := omega) only [mapRead, if_pos, if_neg]

theorem mapRead_of_isUnmapped (h : a.isUnmapped = true) : mapRead s a d = memRead s a := by
  rw [memRead_unmapped s h]
  rw [Addr.isUnmapped_iff] at h
  simp (disch := omega) only [mapRead, if_neg]

end

/-- A memory-space read is a bus read of the map: at a port by computing both sides at its address, elsewhere by the row. -/
theorem exec_decodeMemRead (cyc : Cycles) (a : Addr) (d : Byte) (s : State) :
    exec (decodeMemRead cyc a d) s = .next (busRead cyc false a (fun t => mapRead t a d) s) := by
  rcases a.region_cases with hport | hpal | hram | hlow | hhigh | hunmapped
  · rcases Addr.eq_of_isPort hport with rfl | rfl | rfl | rfl | rfl | rfl | rfl <;> rfl
  · have hrange := Addr.isPalette_iff.mp hpal
    simp only [decodeMemRead_of_isPalette cyc d hpal, mapRead_of_isPalette _ d hpal]
    rw [← ramIdx_of_inRange (by omega) (by omega)]
    rfl
  · simp only [decodeMemRead_of_isPlainRam cyc d hram, mapRead_of_isPlainRam _ d hram]
    rfl
  · simp only [decodeMemRead_of_isRomLow cyc d hlow, mapRead_of_isRomLow _ d hlow]
    rfl
  · simp only [decodeMemRead_of_isRomHigh cyc d hhigh, mapRead_of_isRomHigh _ d hhigh]
    rfl
  · simp only [decodeMemRead_of_isUnmapped cyc d hunmapped, mapRead_of_isUnmapped _ d hunmapped]
    rfl

/-- Settles O37: the word decodes by the read map, and the byte does not depend on the timing step. -/
theorem everyAddressReadsByTheMap : Obligations.EveryAddressReadsByTheMap := by
  intro cyc a d s
  calc handle (readWord cyc a d) s = exec (decodeMemRead cyc a d) s := handle_of_decode_ok (decode_readWord cyc a d) s
    _ = .next (busRead cyc false a (fun t => mapRead t a d) s) := exec_decodeMemRead cyc a d s
    _ = .next { s with acc := accAfter s cyc, response := readReply s cyc false a (mapRead s a d) } :=
      congrArg Host.Outcome.next (busRead_eq cyc false a _ s)

/-! ### The write column of the address map (R40) -/

/-- What a memory-space write of `d` at `a` writes beside the accumulator and the response. -/
def mapWrite (a : Addr) (d : Byte) (s : State) : State :=
  if a.toNat = 0xB000 then s.setImask d
  else if a.isPalette then palStore (a.getLsbD 0) a d s
  else memWrite s a d

theorem mapWrite_of_isPalette {a : Addr} (h : a.isPalette = true) (d : Byte) :
    mapWrite a d = palStore (a.getLsbD 0) a d := by
  have hrange := Addr.isPalette_iff.mp h
  funext s
  rw [mapWrite, if_neg (by omega), if_pos h]

theorem mapWrite_of_outside {a : Addr} (hmask : a.toNat ≠ 0xB000) (hpal : ¬ (0x9C00 ≤ a.toNat ∧ a.toNat < 0x9D00))
    (d : Byte) : mapWrite a d = fun s => memWrite s a d := by
  funext s
  rw [mapWrite, if_neg hmask, if_neg (mt Addr.isPalette_iff.mp hpal)]

/-- A memory-space write is a bus write of the map: at a port by computing both sides at its address, elsewhere by the row. -/
theorem exec_decodeMemWrite (cyc : Cycles) (a : Addr) (d : Byte) (s : State) :
    exec (decodeMemWrite cyc a d) s = .next (busWrite cyc false a d (mapWrite a d) s) := by
  rcases a.region_cases with hport | hpal | hram | hlow | hhigh | hunmapped
  · rcases Addr.eq_of_isPort hport with rfl | rfl | rfl | rfl | rfl | rfl | rfl <;> rfl
  · rw [decodeMemWrite_of_isPalette cyc d hpal, mapWrite_of_isPalette hpal]
    cases a.getLsbD 0 <;> rfl
  · have hrange := Addr.isPlainRam_iff.mp hram
    rw [decodeMemWrite_of_isPlainRam cyc d hram, mapWrite_of_outside (by omega) (by omega)]
    rfl
  · have hrange := Addr.isRomLow_iff.mp hlow
    rw [decodeMemWrite_of_isRomLow cyc d hlow, mapWrite_of_outside (by omega) (by omega)]
    rfl
  · have hrange := Addr.isRomHigh_iff.mp hhigh
    rw [decodeMemWrite_of_isRomHigh cyc d hhigh, mapWrite_of_outside (by omega) (by omega)]
    rfl
  · have hrange := Addr.isUnmapped_iff.mp hunmapped
    rw [decodeMemWrite_of_isUnmapped cyc d hunmapped, mapWrite_of_outside (by omega) (by omega)]
    rfl

/-- R43: the resolver stores one byte, and only in RAM. -/
theorem ramAt_memWrite (s : State) (a : Addr) (v : Byte) (j : Nat) : ramAt (memWrite s a v) j =
    if (0x8000 ≤ a.toNat ∧ a.toNat ≤ 0x9FFF) ∧ j = a.toNat - 0x8000 then v else ramAt s j := by
  by_cases hrange : 0x8000 ≤ a.toNat ∧ a.toNat ≤ 0x9FFF
  · simp [memWrite_ram s v hrange.1 hrange.2, ramAt_ramPut, hrange]
  · simp [memWrite_outside s v hrange, hrange]

theorem mapWrite_frame (a : Addr) (d : Byte) (s : State) : mapWrite a d s =
    { s with imask := (mapWrite a d s).imask, ram := (mapWrite a d s).ram, pal := (mapWrite a d s).pal } := by
  unfold mapWrite
  split_ifs
  · rfl
  · rfl
  · rw [memWrite_eq_setRam]
    rfl

theorem mapWrite_imask (a : Addr) (d : Byte) (s : State) :
    (mapWrite a d s).imask = if a.toNat = 0xB000 then d else s.imask := by
  unfold mapWrite
  split_ifs
  · rfl
  · rfl
  · rw [memWrite_eq_setRam]
    rfl

theorem ramAt_mapWrite (a : Addr) (d : Byte) (s : State) (j : Nat) : ramAt (mapWrite a d s) j =
    if (0x8000 ≤ a.toNat ∧ a.toNat ≤ 0x9FFF) ∧ j = a.toNat - 0x8000 then d else ramAt s j := by
  unfold mapWrite
  split
  next hmask => exact (if_neg (by omega)).symm
  split
  next hpal =>
    rw [Addr.isPalette_iff] at hpal
    rw [ramAt_palStore, ramIdx_of_inRange (by omega) (by omega)]
    exact if_congr (and_iff_right (by omega)).symm rfl rfl
  next => exact ramAt_memWrite s a d j

theorem palAt_mapWrite (a : Addr) (d : Byte) (s : State) (j : Nat) : palAt (mapWrite a d s) j =
    if (0x9C00 ≤ a.toNat ∧ a.toNat ≤ 0x9CFF) ∧ j = (a.toNat - 0x9C00) / 2
      then palEnc (palAt s j) (a.toNat % 2 = 1) d else palAt s j := by
  unfold mapWrite
  split
  next hmask => exact (if_neg (by omega)).symm
  split
  next hpal =>
    rw [Addr.isPalette_iff] at hpal
    rw [palAt_palStore, Addr.getLsbD_zero]
    exact if_congr (and_iff_right (by omega)).symm rfl rfl
  next hpal =>
    rw [Addr.isPalette_iff] at hpal
    rw [memWrite_eq_setRam, if_neg (by omega)]
    rfl

/-- Settles O38: the word decodes by the write map, and each clause is a lemma about `mapWrite`. -/
theorem everyAddressWritesByTheMap : Obligations.EveryAddressWritesByTheMap := by
  intro cyc a d s
  refine ⟨(mapWrite a d (s.setAcc (accAfter s cyc))).setResponse (writeReply s cyc false a d), ?_,
    congrArg (fun t => t.setResponse (writeReply s cyc false a d)) (mapWrite_frame a d _),
    mapWrite_imask a d _, ramAt_mapWrite a d _, palAt_mapWrite a d _⟩
  rw [handle_of_decode_ok (decode_writeWord cyc a d), exec_decodeMemWrite, busWrite_eq]

/-! ### Reads have no side effect -/

/-- A supplied byte that depends on neither the accumulator nor the response. -/
def IgnoresTiming (supply : State → Byte) : Prop :=
  (∀ s n, supply (s.setAcc n) = supply s) ∧ ∀ s r, supply (s.setResponse r) = supply s

/-- R49, R76: everything a main-board read can do. -/
theorem exec_of_isMainRead {i : Instr} (h : isMainRead i = true) : ∃ cyc io a supply,
    (∀ s, exec i s = .next (busRead cyc io a supply s)) ∧ IgnoresTiming supply := by
  cases i <;> cases h
  all_goals exact ⟨_, _, _, _, fun _ => rfl, fun _ _ => rfl, fun _ _ => rfl⟩

/-- Settles O48: the second read finds a state that differs from the first one's in nothing the byte depends on. -/
theorem readsHaveNoSideEffect : Obligations.ReadsHaveNoSideEffect := by
  intro i s t hread h
  obtain ⟨cyc, io, a, supply, hexec, hacc, hresponse⟩ := exec_of_isMainRead hread
  obtain rfl : busRead cyc io a supply s = t := Host.Outcome.next.inj ((hexec s).symm.trans h)
  refine ⟨by rw [busRead_eq]; rfl, fun _ => ⟨_, hexec _, ?_⟩⟩
  simp [busRead_eq, readReply, hacc, hresponse]

end Sys2Proof.Machine

/-! ## Proofs: encoding and decoding, the opcode map, the response (O2, O3, O4, O19) -/

namespace Sys2Proof.Machine

/-! ### A word without its input bit `INT` is its packed fields (R57) -/

theorem and_clearInt (w : StimulusWord) : w &&& 0xFFFFFFFFF7FFFFFF#64 =
    packWord (fieldCyc w) (fieldKind w) (fieldIo w) (fieldWr w) (fieldRd w) (fieldD w) (fieldA w) := by
  have hm : 0xFFFFFFFFF7FFFFFF#64 = ~~~fieldMask 27 1 := by decide
  refine BitVec.eq_of_getLsbD_eq fun i hi => ?_
  simp only [hm, BitVec.getLsbD_and, BitVec.getLsbD_not, getLsbD_fieldMask, getLsbD_packWord, fieldCyc, fieldKind, fieldIo,
    fieldWr, fieldRd, fieldD, fieldA, BitVec.getLsbD_extractLsb']
  by_cases h27 : i = 27
  · simp [h27]
  · rw [decide_eq_true hi, decide_eq_false (by omega), Bool.not_false, Bool.and_self, Bool.and_true]
    split_ifs <;> first | (subst_vars; rfl) | (rw [decide_eq_true (by omega), Bool.true_and]; congr 1; omega)

/-! ### Decoding what was encoded (R64) -/

/-- R64 (3): the decoder dispatches a packed `TXN` by its control lines. -/
theorem decode_packWord_txn (cyc : Cycles) (io wr rd : Bool) (d : Byte) (a : Addr) :
    decode (packWord cyc 0 io wr rd d a) = .ok (decodeTxn (packWord cyc 0 io wr rd d a)) :=
  decode_of_kind_zero (fieldKind_packWord ..)

/-- R64 (4): the decoder dispatches a packed `SNDTXN` by its control lines. -/
theorem decode_packWord_snd (cyc : Cycles) (io wr rd : Bool) (d : Byte) (a : Addr) :
    decode (packWord cyc 4 io wr rd d a) = decodeSnd (packWord cyc 4 io wr rd d a) :=
  decode_of_kind_four (fieldKind_packWord ..)

/-- Settles O2: the word of a memory-space stimulus is decoded by the address map, at a port by computing, elsewhere by the
row of its address class; every other word by its control lines or its latch. -/
theorem decodeOfEncodeIsIdentity : Obligations.DecodeOfEncodeIsIdentity := by
  intro i hwf
  cases i
  case palRd cyc a d => exact (decode_readWord cyc a d).trans (congrArg _ (decodeMemRead_of_isPalette cyc d hwf))
  case palWrE cyc a d =>
    obtain ⟨hpal, heven⟩ : a.isPalette = true ∧ a.getLsbD 0 = false := by simpa [Instr.wellFormed] using hwf
    rw [encode, decode_writeWord, decodeMemWrite_of_isPalette cyc d hpal, heven]
    rfl
  case palWrO cyc a d =>
    obtain ⟨hpal, hodd⟩ : a.isPalette = true ∧ a.getLsbD 0 = true := by simpa [Instr.wellFormed] using hwf
    rw [encode, decode_writeWord, decodeMemWrite_of_isPalette cyc d hpal, if_pos hodd]
  case romlRd cyc a d => exact (decode_readWord cyc a d).trans (congrArg _ (decodeMemRead_of_isRomLow cyc d hwf))
  case romhRd cyc a d => exact (decode_readWord cyc a d).trans (congrArg _ (decodeMemRead_of_isRomHigh cyc d hwf))
  case ramRd cyc a d => exact (decode_readWord cyc a d).trans (congrArg _ (decodeMemRead_of_isPlainRam cyc d hwf))
  case unmapRd cyc a d => exact (decode_readWord cyc a d).trans (congrArg _ (decodeMemRead_of_isUnmapped cyc d hwf))
  case romlWr cyc a d => exact (decode_writeWord cyc a d).trans (congrArg _ (decodeMemWrite_of_isRomLow cyc d hwf))
  case romhWr cyc a d => exact (decode_writeWord cyc a d).trans (congrArg _ (decodeMemWrite_of_isRomHigh cyc d hwf))
  case ramWr cyc a d => exact (decode_writeWord cyc a d).trans (congrArg _ (decodeMemWrite_of_isPlainRam cyc d hwf))
  case unmapWr cyc a d => exact (decode_writeWord cyc a d).trans (congrArg _ (decodeMemWrite_of_isUnmapped cyc d hwf))
  case joy1Rd | joy2Rd | sysRd | b003Rd | dip1Rd | dip2Rd | slatchRd => exact decode_readWord _ _ _
  case imaskWr | b001Wr | b002Wr | b003Wr | flipWr | b005Wr | slatchWr => exact decode_writeWord _ _ _
  case ioRd | ioWr | idle | rsvdRdwr =>
    rw [encode, decode_packWord_txn]
    simp [decodeTxn]
  case sndRd | sndWr | sndIdle =>
    rw [encode, decode_packWord_snd]
    simp [decodeSnd]
  case setinJoy1 | setinJoy2 | setinSys | setinDip1 | setinDip2 =>
    rw [encode, decode_of_kind_two (fieldKind_setinWord _ _), decodeSetin, if_pos (setinWord_zero_bits _ _)]
    simp
  case render | reset => rfl

/-! ### Encoding what was decoded (R64) -/

theorem encode_decodeMemRead (cyc : Cycles) (a : Addr) (d : Byte) : encode (decodeMemRead cyc a d) = readWord cyc a d := by
  rcases a.region_cases with hport | h | h | h | h | h
  · rcases Addr.eq_of_isPort hport with rfl | rfl | rfl | rfl | rfl | rfl | rfl <;> rfl
  · rw [decodeMemRead_of_isPalette cyc d h, encode]
  · rw [decodeMemRead_of_isPlainRam cyc d h, encode]
  · rw [decodeMemRead_of_isRomLow cyc d h, encode]
  · rw [decodeMemRead_of_isRomHigh cyc d h, encode]
  · rw [decodeMemRead_of_isUnmapped cyc d h, encode]

theorem encode_decodeMemWrite (cyc : Cycles) (a : Addr) (d : Byte) :
    encode (decodeMemWrite cyc a d) = writeWord cyc a d := by
  rcases a.region_cases with hport | h | h | h | h | h
  · rcases Addr.eq_of_isPort hport with rfl | rfl | rfl | rfl | rfl | rfl | rfl <;> rfl
  · rw [decodeMemWrite_of_isPalette cyc d h, apply_ite encode, encode, encode, ite_self]
  · rw [decodeMemWrite_of_isPlainRam cyc d h, encode]
  · rw [decodeMemWrite_of_isRomLow cyc d h, encode]
  · rw [decodeMemWrite_of_isRomHigh cyc d h, encode]
  · rw [decodeMemWrite_of_isUnmapped cyc d h, encode]

theorem encode_decodeTxn (w : StimulusWord) : encode (decodeTxn w) =
    packWord (fieldCyc w) 0 (fieldIo w) (fieldWr w) (fieldRd w) (fieldD w) (fieldA w) := by
  unfold decodeTxn
  simp only []
  split
  case h_5 hr hw hi => rw [encode_decodeMemRead, readWord, hr, hw, hi]
  case h_6 hr hw hi => rw [encode_decodeMemWrite, writeWord, hr, hw, hi]
  all_goals simp [encode, *]

theorem encode_of_decodeSnd {w : StimulusWord} {i : Instr} (h : decodeSnd w = .ok i) : encode i =
    packWord (fieldCyc w) 4 (fieldIo w) (fieldWr w) (fieldRd w) (fieldD w) (fieldA w) := by
  unfold decodeSnd at h
  split at h <;> cases h
  all_goals simp [encode, *]

/-- R61: a `SETIN` word whose must-be-zero bits are zero is its latch and its byte. -/
theorem and_clearInt_of_not_hasSetinBits {w : StimulusWord} (hk : fieldKind w = 2) (h : ¬ hasSetinBits w) :
    w &&& 0xFFFFFFFFF7FFFFFF#64 = setinWord (fieldSel w) (fieldD w) := by
  obtain ⟨hcyc, hctl, haddr⟩ := not_not.mp (mt (hasSetinBits_iff w).mpr h)
  have hline : ∀ j < 4, w.getLsbD (24 + j) = false := fun j hj => by
    simpa [hj] using congrArg (·.getLsbD j) hctl
  have hsel : fieldA w = (fieldSel w).setWidth 16 := by
    simp only [fieldA, fieldSel, ← BitVec.toNat_inj, BitVec.extractLsb'_toNat, BitVec.toNat_setWidth, BitVec.toNat_ofNat,
      Nat.shiftRight_eq_div_pow] at haddr ⊢
    omega
  rw [and_clearInt, setinWord, hk, hsel, show fieldCyc w = 0 from hcyc, show fieldIo w = false from hline 2 (by decide),
    show fieldWr w = false from hline 1 (by decide), show fieldRd w = false from hline 0 (by decide)]

theorem eq_setinWord_of_not_hasSetinBits {w : StimulusWord} (hk : fieldKind w = 2) (h : ¬ hasSetinBits w) :
    w = setinWord (fieldSel w) (fieldD w) := by
  have hint : w &&& 0x08000000#64 = 0#64 := by
    calc w &&& 0x08000000#64 = w &&& 0xFFFFFFFF0F00FFF8#64 &&& 0x08000000#64 := by rw [BitVec.and_assoc]; rfl
      _ = 0#64 := by rw [not_not.mp h]; rfl
  calc w = w &&& (0xFFFFFFFFF7FFFFFF#64 ||| 0x08000000#64) := BitVec.and_allOnes.symm
    _ = w &&& 0xFFFFFFFFF7FFFFFF#64 := by rw [BitVec.and_or_distrib_left, hint, BitVec.or_zero]
    _ = setinWord (fieldSel w) (fieldD w) := and_clearInt_of_not_hasSetinBits hk h

theorem encode_of_decodeSetin {w : StimulusWord} {i : Instr} (h : decodeSetin w = .ok i) :
    ¬ hasSetinBits w ∧ encode i = setinWord (fieldSel w) (fieldD w) := by
  unfold decodeSetin at h
  split at h
  case isFalse => exact nomatch h
  case isTrue hz =>
    refine ⟨mt (hasSetinBits_iff w).mp (not_not_intro hz), ?_⟩
    split at h <;> cases h
    all_goals
      next hsel =>
      rw [encode]
      congr 1
      exact BitVec.eq_of_toNat_eq hsel.symm

theorem encode_of_decodeExact {w x : StimulusWord} {i j : Instr} (h : decodeExact w x i = .ok j)
    (hx : encode i = x &&& 0xFFFFFFFFF7FFFFFF#64) : encode j = w &&& 0xFFFFFFFFF7FFFFFF#64 := by
  unfold decodeExact at h
  split at h
  case isTrue hw => rw [hw, ← hx, Except.ok.inj h]
  case isFalse => exact nomatch h

theorem encode_of_decode {w : StimulusWord} {i : Instr} (h : decode w = .ok i) :
    encode i = w &&& 0xFFFFFFFFF7FFFFFF#64 := by
  rcases fieldKind_cases w with hk | hk | hk | hk | hk | hk
  · rw [decode_of_kind_zero hk] at h
    rw [← Except.ok.inj h, encode_decodeTxn, and_clearInt, hk]
  · exact encode_of_decodeExact (decode_of_kind_one hk ▸ h) (by decide)
  · obtain ⟨hz, he⟩ := encode_of_decodeSetin (decode_of_kind_two hk ▸ h)
    rw [he, and_clearInt_of_not_hasSetinBits hk hz]
  · exact encode_of_decodeExact (decode_of_kind_three hk ▸ h) (by decide)
  · rw [encode_of_decodeSnd (decode_of_kind_four hk ▸ h), and_clearInt, hk]
  · rw [decode_of_five_le_kind hk] at h
    exact nomatch h

/-- Settles O3: well-formedness and the encoded word, each kind by kind. -/
theorem encodeOfDecodeClearsTheIgnoredBit : Obligations.EncodeOfDecodeClearsTheIgnoredBit :=
  fun _ _ h => ⟨decode_wellFormed h, encode_of_decode h⟩

/-! ### The packed response (R59) -/

theorem getLsbD_packResponse (r : Response) (i : Nat) : (packResponse r).getLsbD i =
    if i < 16 then r.a.getLsbD i
    else if i < 24 then r.dout.getLsbD (i - 16)
    else if i = 24 then r.rd
    else if i = 25 then r.wr
    else if i = 26 then r.io
    else if i = 27 then r.int
    else (boardKind r.board).getLsbD (i - 28) := by
  simp only [packResponse, BitVec.getLsbD_append, BitVec.getLsbD_ofBool, Nat.sub_sub]
  split_ifs <;> first | omega | rfl | (subst_vars; rfl)

theorem extractLsb'_packResponse_dout (r : Response) : (packResponse r).extractLsb' 16 8 = r.dout := by
  refine BitVec.eq_of_getLsbD_eq fun i hi => ?_
  rw [BitVec.getLsbD_extractLsb', getLsbD_packResponse, if_neg (by omega), if_pos (by omega), decide_eq_true hi,
    Bool.true_and, Nat.add_sub_cancel_left]

/-- R59: but for `INT` and `D`, a response is the low half of the word of a stimulus with its pins. -/
theorem packResponse_pins (r : Response) (cyc : Cycles) (d : Byte) : packResponse r &&& 0xF700FFFF#32 =
    (packWord cyc (boardKind r.board) r.io r.wr r.rd d r.a).setWidth 32 &&& 0xF700FFFF#32 := by
  have hmask : ∀ i < 32, (0xF700FFFF#32).getLsbD i = !decide ((16 ≤ i ∧ i < 24) ∨ i = 27) := by decide
  refine BitVec.eq_of_getLsbD_eq fun i hi => ?_
  rw [BitVec.getLsbD_and, BitVec.getLsbD_and, hmask i hi]
  by_cases hfree : (16 ≤ i ∧ i < 24) ∨ i = 27
  · rw [decide_eq_true hfree, Bool.not_true, Bool.and_false, Bool.and_false]
  · have h27 : i ≠ 27 := fun h => hfree (.inr h)
    have h24 : i < 16 ∨ ¬ i < 24 := by omega
    rw [BitVec.getLsbD_setWidth, getLsbD_packResponse, getLsbD_packWord]
    rcases h24 with h | h <;> simp [h, h27, hi]

/-! ### What a bus cycle group answers (R76, R108) -/

/-- R76: every `TXN` is the common skeleton around its handler, with the pins of its word; a handler that drives no read
answers the data line of the word. -/
theorem exec_of_txnCycles {i : Instr} {cyc : Cycles} (h : txnCycles i = some cyc) : ∃ io wr rd a d dispatch,
    encode i = packWord cyc 0 io wr rd d a ∧ (∀ s, exec i s = .next (busTxn cyc io wr rd a dispatch s))
      ∧ (isDrivenRead i = false → ∀ s, (dispatch s).1 = d) := by
  cases i <;> cases h
  case palRd | joy1Rd | joy2Rd | sysRd | dip1Rd | dip2Rd => exact ⟨_, _, _, _, _, _, rfl, fun _ => rfl, nofun⟩
  case romlRd a d | romhRd a d | ramRd a d | unmapRd a d =>
    exact ⟨_, _, _, _, _, fun s => (memRead s a, s), rfl, fun _ => rfl, nofun⟩
  case romlWr a d | romhWr a d | ramWr a d | unmapWr a d =>
    exact ⟨_, _, _, _, _, fun s => (d, memWrite s a d), rfl, fun _ => rfl, fun _ _ => rfl⟩
  all_goals exact ⟨_, _, _, _, _, _, rfl, fun _ => rfl, fun _ _ => rfl⟩

/-- R108: every `SNDTXN` is the stub skeleton, with the pins and the data line of its word. -/
theorem exec_of_isSnd {i : Instr} (h : isSnd i = true) : txnCycles i = none ∧ ∃ cyc io wr rd a d,
    encode i = packWord cyc 4 io wr rd d a ∧ ∀ s, exec i s = .next (sndTxn io wr rd a d s) := by
  cases i <;> cases h
  all_goals exact ⟨rfl, _, _, _, _, _, _, rfl, fun _ => rfl⟩

/-- Settles O19: both skeletons copy the pins into the response; they differ in `INT` and in who gives `D`. -/
theorem responseCopiesThePins : Obligations.ResponseCopiesThePins := by
  intro i s hbus
  cases hcyc : txnCycles i with
  | some cyc =>
    obtain ⟨io, wr, rd, a, d, dispatch, hword, hexec, hdout⟩ := exec_of_txnCycles hcyc
    refine ⟨_, _, hexec s, rfl, ?_, ?_, extractLsb'_packResponse_dout _, fun hread => ?_⟩
    · rw [hword]
      exact packResponse_pins _ cyc d
    · rw [advance_eq]
      exact getLsbD_packResponse _ 27
    · rw [hword, fieldD_packWord]
      exact hdout hread _
  | none =>
    obtain ⟨-, cyc, io, wr, rd, a, d, hword, hexec⟩ := exec_of_isSnd (by simpa [hcyc] using hbus)
    refine ⟨_, _, hexec s, rfl, ?_, getLsbD_packResponse _ 27, extractLsb'_packResponse_dout _, fun _ => ?_⟩
    · rw [hword]
      exact packResponse_pins _ cyc d
    · rw [hword, fieldD_packWord]

/-! ### The opcode map by the bits of the word (R64, R65)

The control bits of a word leave few rows that can fit it, and those rows look at the address only. -/

/-- The rows of the opcode map that agree with `w` on the bits of `c`. -/
def rowsAgreeing (c w : StimulusWord) : List OpcodeRow :=
  opcodeMap.filter fun r => w &&& c &&& r.mask == r.pattern &&& c

theorem firstRow_eq_find?_rowsAgreeing (c w : StimulusWord) :
    firstRow w = (rowsAgreeing c w).find? fun r => w &&& r.mask == r.pattern := by
  rw [firstRow, rowsAgreeing, List.find?_filter]
  refine List.find?_congr fun r _ => Bool.eq_iff_iff.mpr ?_
  simp only [beq_iff_eq, decide_eq_true_eq]
  refine ⟨fun h => ⟨?_, h⟩, And.right⟩
  rw [← h, BitVec.and_assoc, BitVec.and_comm c, BitVec.and_assoc]

/-- The priority of the first row that fits. -/
def mapRow (w : StimulusWord) : Option Nat := (firstRow w).map fun r => r.priority

theorem rowsAgreeing_congr {c w w' : StimulusWord} (h : w &&& c = w' &&& c) : rowsAgreeing c w = rowsAgreeing c w' := by
  rw [rowsAgreeing, h, rowsAgreeing]

/-- A word has no row where none of the rows that agree with it on the bits of `c` fits it. -/
theorem mapRow_eq_none {c w : StimulusWord} (h : ∀ r ∈ rowsAgreeing c w, w &&& r.mask ≠ r.pattern) : mapRow w = none := by
  rw [mapRow, firstRow_eq_find?_rowsAgreeing c, List.find?_eq_none.mpr fun r hr => by simpa using h r hr]
  rfl

/-- Words that agree on the bits of `c` have the same row where the rows that agree with them look at no other bit. -/
theorem mapRow_congr {c w w' : StimulusWord} (h : w &&& c = w' &&& c)
    (hrows : ∀ r ∈ rowsAgreeing c w', c &&& r.mask = r.mask) : mapRow w = mapRow w' := by
  rw [mapRow, mapRow, firstRow_eq_find?_rowsAgreeing c, firstRow_eq_find?_rowsAgreeing c, rowsAgreeing_congr h]
  refine congrArg _ <| List.find?_congr fun r hr => ?_
  rw [← hrows r hr, ← BitVec.and_assoc, h, BitVec.and_assoc]

/-- A word on the bits of a mask without bit 27 is its masked fields. -/
theorem and_eq_packWord (w : StimulusWord) {m : StimulusWord} (hm : 0xFFFFFFFFF7FFFFFF#64 &&& m = m) : w &&& m =
    packWord (fieldCyc w &&& fieldCyc m) (fieldKind w &&& fieldKind m) (fieldIo w && fieldIo m) (fieldWr w && fieldWr m)
      (fieldRd w && fieldRd m) (fieldD w &&& fieldD m) (fieldA w &&& fieldA m) := by
  rw [← packWord_and, ← and_clearInt, BitVec.and_assoc, hm]

/-- R57: the control bits, `KIND`, `IO`, `WR` and `RD`. -/
theorem and_control (w : StimulusWord) :
    w &&& 0xF7000000#64 = packWord 0 (fieldKind w) (fieldIo w) (fieldWr w) (fieldRd w) 0 0 := by
  have hk : fieldKind 0xF7000000#64 = BitVec.allOnes 4 := by decide
  rw [and_eq_packWord w (by decide), hk, BitVec.and_allOnes]
  simp [fieldCyc, fieldIo, fieldWr, fieldRd, fieldD, fieldA]

theorem and_control_eq {w : StimulusWord} {k : BitVec 4} {io wr rd : Bool} (hk : fieldKind w = k) (hio : fieldIo w = io)
    (hwr : fieldWr w = wr) (hrd : fieldRd w = rd) :
    w &&& 0xF7000000#64 = packWord 0 k io wr rd 0 0 &&& 0xF7000000#64 := by
  simp only [and_control, fieldKind_packWord, fieldIo_packWord, fieldWr_packWord, fieldRd_packWord, hk, hio, hwr, hrd]

theorem and_kind (w : StimulusWord) : w &&& 0xF0000000#64 = packWord 0 (fieldKind w) false false false 0 0 := by
  have hk : fieldKind 0xF0000000#64 = BitVec.allOnes 4 := by decide
  rw [and_eq_packWord w (by decide), hk, BitVec.and_allOnes]
  simp [fieldCyc, fieldIo, fieldWr, fieldRd, fieldD, fieldA]

/-! ### The masks of the map as ranges of addresses -/

/-- A mask that drops the low `k` bits of an address selects an aligned range. -/
theorem and_high_eq_iff (a : Addr) {p : Addr} {k : Nat} (hp : p.toNat % 2 ^ k = 0) :
    a &&& (BitVec.allOnes 16 <<< k) = p ↔ p.toNat ≤ a.toNat ∧ a.toNat < p.toNat + 2 ^ k := by
  rw [← BitVec.shiftLeft_ushiftRight, ← BitVec.toNat_inj, BitVec.toNat_shiftLeft, BitVec.toNat_ushiftRight,
    Nat.shiftRight_eq_div_pow, Nat.shiftLeft_eq, Nat.mod_eq_of_lt ((Nat.div_mul_le_self ..).trans_lt a.isLt)]
  have hdiv := Nat.div_add_mod' a.toNat (2 ^ k)
  have hlt := Nat.mod_lt a.toNat (Nat.two_pow_pos k)
  refine ⟨fun h => by omega, fun ⟨hle, hlt'⟩ => ?_⟩
  obtain ⟨q, hq⟩ := Nat.dvd_of_mod_eq_zero hp
  rw [hq, Nat.mul_comm, Nat.div_eq_of_lt_le (k := q)] <;> nlinarith

theorem and_FFFF_eq_iff (a p : Addr) : a &&& 0xFFFF#16 = p ↔ a.toNat = p.toNat := by
  rw [show 0xFFFF#16 = BitVec.allOnes 16 from rfl, BitVec.and_allOnes, BitVec.toNat_inj]

theorem and_8000_eq_0000_iff (a : Addr) : a &&& 0x8000#16 = 0x0000#16 ↔ a.toNat < 0x8000 :=
  (and_high_eq_iff a (k := 15) rfl).trans (and_iff_right (Nat.zero_le _))

theorem and_E000_eq_8000_iff (a : Addr) : a &&& 0xE000#16 = 0x8000#16 ↔ 0x8000 ≤ a.toNat ∧ a.toNat < 0xA000 :=
  and_high_eq_iff a (k := 13) rfl

theorem and_E000_eq_C000_iff (a : Addr) : a &&& 0xE000#16 = 0xC000#16 ↔ 0xC000 ≤ a.toNat ∧ a.toNat < 0xE000 :=
  and_high_eq_iff a (k := 13) rfl

theorem and_FF00_eq_9C00_iff (a : Addr) : a &&& 0xFF00#16 = 0x9C00#16 ↔ 0x9C00 ≤ a.toNat ∧ a.toNat < 0x9D00 :=
  and_high_eq_iff a (k := 8) rfl

/-- The rows of the two palette writes are told apart by the parity of the address. -/
theorem and_FF01_eq_iff (a : Addr) (odd : Bool) : a &&& 0xFF01#16 = (if odd then 0x9C01#16 else 0x9C00#16) ↔
    (0x9C00 ≤ a.toNat ∧ a.toNat < 0x9D00) ∧ a.getLsbD 0 = odd := by
  rw [← Addr.isPalette_iff]
  refine ⟨fun h => ?_, fun ⟨hpal, hodd⟩ => by rw [and_palette_parity hpal, hodd]⟩
  have hhigh : a &&& 0xFF00#16 = 0x9C00#16 := by
    calc a &&& 0xFF00#16 = a &&& 0xFF01#16 &&& 0xFF00#16 := by rw [BitVec.and_assoc]; rfl
      _ = 0x9C00#16 := by rw [h]; cases odd <;> rfl
  have hpal : a.isPalette = true := Addr.isPalette_iff.mpr ((and_FF00_eq_9C00_iff a).mp hhigh)
  rw [and_palette_parity hpal] at h
  refine ⟨hpal, ?_⟩
  cases odd <;> simpa using h

theorem and_FF01_eq_9C00_iff (a : Addr) :
    a &&& 0xFF01#16 = 0x9C00#16 ↔ (0x9C00 ≤ a.toNat ∧ a.toNat < 0x9D00) ∧ a.getLsbD 0 = false := and_FF01_eq_iff a false

theorem and_FF01_eq_9C01_iff (a : Addr) :
    a &&& 0xFF01#16 = 0x9C01#16 ↔ (0x9C00 ≤ a.toNat ∧ a.toNat < 0x9D00) ∧ a.getLsbD 0 = true := and_FF01_eq_iff a true

/-! ### The rows of the memory space -/

/-- A row by its priority, the address bits of its mask and those of its pattern. -/
abbrev AddrRow := Nat × Addr × Addr

/-- The address row of a row of the map. -/
def addrRow (r : OpcodeRow) : AddrRow := (r.priority, fieldA r.mask, fieldA r.pattern)

/-- The first row whose address bits fit. -/
def firstFit (a : Addr) : List AddrRow → Option Nat
  | [] => none
  | (n, m, p) :: rows => if a &&& m = p then some n else firstFit a rows

theorem firstFit_map_addrRow (a : Addr) (rows : List OpcodeRow) : firstFit a (rows.map addrRow) =
    (rows.find? fun r => a &&& fieldA r.mask == fieldA r.pattern).map fun r => r.priority := by
  induction rows with
  | nil => rfl
  | cons r rows ih =>
    by_cases h : a &&& fieldA r.mask = fieldA r.pattern
    · simp [firstFit, addrRow, h]
    · simp [firstFit, addrRow, h, ih]

/-- The row of a `TXN` of known control lines, where the rows that agree with these look at the address only. -/
theorem mapRow_of_addrRows {w : StimulusWord} {wr rd : Bool} {rows : List AddrRow} (hk : fieldKind w = 0)
    (hio : fieldIo w = false) (hwr : fieldWr w = wr) (hrd : fieldRd w = rd)
    (hrows : (rowsAgreeing 0xF7000000#64 (packWord 0 0 false wr rd 0 0)).map addrRow = rows)
    (haddr : ∀ r ∈ rowsAgreeing 0xF7000000#64 (packWord 0 0 false wr rd 0 0),
      r.mask = packWord 0 15 true true true 0 (fieldA r.mask) ∧ r.pattern = packWord 0 0 false wr rd 0 (fieldA r.pattern)) :
    mapRow w = firstFit (fieldA w) rows := by
  rw [← hrows, firstFit_map_addrRow, mapRow, firstRow_eq_find?_rowsAgreeing 0xF7000000#64,
    rowsAgreeing_congr (and_control_eq hk hio hwr hrd)]
  refine congrArg _ (List.find?_congr fun r hr => Bool.eq_iff_iff.mpr ?_)
  obtain ⟨hmask, hpattern⟩ := haddr r hr
  have hw : w &&& r.mask = packWord 0 0 false wr rd 0 (fieldA w &&& fieldA r.mask) := by
    rw [hmask, BitVec.and_comm, packWord_and, hk, hio, hwr, hrd, fieldA_packWord, BitVec.and_comm (fieldA r.mask)]
    simp
  rw [beq_iff_eq, beq_iff_eq, hw]
  refine ⟨fun h => ?_, fun h => ?_⟩
  · rw [← h, fieldA_packWord]
  · rw [h, ← hpattern]

/-- R65: the rows of a memory-space read. -/
def readRows : List AddrRow :=
  [(1, 0xFF00#16, 0x9C00#16), (4, 0xFFFF#16, 0xB000#16), (6, 0xFFFF#16, 0xB001#16), (8, 0xFFFF#16, 0xB002#16),
    (10, 0xFFFF#16, 0xB003#16), (12, 0xFFFF#16, 0xB004#16), (14, 0xFFFF#16, 0xB005#16), (16, 0xFFFF#16, 0xB800#16),
    (18, 0x8000#16, 0x0000#16), (19, 0xE000#16, 0xC000#16), (22, 0xE000#16, 0x8000#16), (24, 0x0000#16, 0x0000#16)]

/-- R65: the rows of a memory-space write. -/
def writeRows : List AddrRow :=
  [(2, 0xFF01#16, 0x9C00#16), (3, 0xFF01#16, 0x9C01#16), (5, 0xFFFF#16, 0xB000#16), (7, 0xFFFF#16, 0xB001#16),
    (9, 0xFFFF#16, 0xB002#16), (11, 0xFFFF#16, 0xB003#16), (13, 0xFFFF#16, 0xB004#16), (15, 0xFFFF#16, 0xB005#16),
    (17, 0xFFFF#16, 0xB800#16), (20, 0x8000#16, 0x0000#16), (21, 0xE000#16, 0xC000#16), (23, 0xE000#16, 0x8000#16),
    (25, 0x0000#16, 0x0000#16)]

/-- R64, R65: on the addresses of memory space, the rows of a read and the read map of the decoder agree. -/
theorem firstFit_readRows (cyc : Cycles) (a : Addr) (d : Byte) :
    firstFit a readRows = some (decodeMemRead cyc a d).row := by
  generalize hrow : (decodeMemRead cyc a d).row = n
  simp only [readRows, firstFit, and_FF00_eq_9C00_iff, and_FFFF_eq_iff, and_8000_eq_0000_iff,
    and_E000_eq_8000_iff, and_E000_eq_C000_iff, BitVec.reduceToNat, BitVec.and_zero, if_true]
  subst hrow
  rcases a.region_cases with hport | h | h | h | h | h
  · rcases Addr.eq_of_isPort hport with rfl | rfl | rfl | rfl | rfl | rfl | rfl <;> rfl
  · rw [decodeMemRead_of_isPalette cyc d h, if_pos (Addr.isPalette_iff.mp h), Instr.row]
  · rw [decodeMemRead_of_isPlainRam cyc d h, Instr.row]
    rw [Addr.isPlainRam_iff] at h
    simp (disch := omega) only [if_pos, if_neg]
  · rw [decodeMemRead_of_isRomLow cyc d h, Instr.row]
    rw [Addr.isRomLow_iff] at h
    simp (disch := omega) only [if_pos, if_neg]
  · rw [decodeMemRead_of_isRomHigh cyc d h, Instr.row]
    rw [Addr.isRomHigh_iff] at h
    simp (disch := omega) only [if_pos, if_neg]
  · rw [decodeMemRead_of_isUnmapped cyc d h, Instr.row]
    rw [Addr.isUnmapped_iff] at h
    simp (disch := omega) only [if_neg]

/-- R64, R65: on the addresses of memory space, the rows of a write and the write map of the decoder agree. -/
theorem firstFit_writeRows (cyc : Cycles) (a : Addr) (d : Byte) :
    firstFit a writeRows = some (decodeMemWrite cyc a d).row := by
  generalize hrow : (decodeMemWrite cyc a d).row = n
  simp only [writeRows, firstFit, and_FF01_eq_9C00_iff, and_FF01_eq_9C01_iff, and_FFFF_eq_iff, and_8000_eq_0000_iff,
    and_E000_eq_8000_iff, and_E000_eq_C000_iff, BitVec.reduceToNat, BitVec.and_zero, if_true]
  subst hrow
  rcases a.region_cases with hport | h | h | h | h | h
  · rcases Addr.eq_of_isPort hport with rfl | rfl | rfl | rfl | rfl | rfl | rfl <;> rfl
  · rw [decodeMemWrite_of_isPalette cyc d h]
    cases a.getLsbD 0 <;> simp [Addr.isPalette_iff.mp h, Instr.row]
  · rw [decodeMemWrite_of_isPlainRam cyc d h, Instr.row]
    rw [Addr.isPlainRam_iff] at h
    simp (disch := omega) only [if_pos, if_neg]
  · rw [decodeMemWrite_of_isRomLow cyc d h, Instr.row]
    rw [Addr.isRomLow_iff] at h
    simp (disch := omega) only [if_pos, if_neg]
  · rw [decodeMemWrite_of_isRomHigh cyc d h, Instr.row]
    rw [Addr.isRomHigh_iff] at h
    simp (disch := omega) only [if_pos, if_neg]
  · rw [decodeMemWrite_of_isUnmapped cyc d h, Instr.row]
    rw [Addr.isUnmapped_iff] at h
    simp (disch := omega) only [if_neg]

/-! ### The row of every word -/

/-- The row of what the decoder answers. -/
def rowOf : Except DecodeError Instr → Option Nat
  | .ok i => some i.row
  | .error _ => none

/-- A word whose control bits leave only rows without address bits. -/
theorem mapRow_of_control {w : StimulusWord} {k : BitVec 4} {io wr rd : Bool} (hk : fieldKind w = k) (hio : fieldIo w = io)
    (hwr : fieldWr w = wr) (hrd : fieldRd w = rd)
    (hrows : ∀ r ∈ rowsAgreeing 0xF7000000#64 (packWord 0 k io wr rd 0 0), 0xF7000000#64 &&& r.mask = r.mask) :
    mapRow w = mapRow (packWord 0 k io wr rd 0 0) :=
  mapRow_congr (and_control_eq hk hio hwr hrd) hrows

/-- R64 (3): a `TXN` in memory space has the row that its address selects, every other the row of its control lines. -/
theorem mapRow_decodeTxn {w : StimulusWord} (hk : fieldKind w = 0) : mapRow w = some (decodeTxn w).row := by
  unfold decodeTxn
  simp only []
  split
  case h_1 hrd hwr | h_2 hrd hwr =>
    cases hio : fieldIo w <;> exact mapRow_of_control hk hio hwr hrd (by decide)
  case h_3 hrd hwr hio | h_4 hrd hwr hio => exact mapRow_of_control hk hio hwr hrd (by decide)
  case h_5 hrd hwr hio =>
    exact (mapRow_of_addrRows hk hio hwr hrd (by decide) (by decide)).trans (firstFit_readRows _ _ _)
  case h_6 hrd hwr hio =>
    exact (mapRow_of_addrRows hk hio hwr hrd (by decide) (by decide)).trans (firstFit_writeRows _ _ _)

theorem mapRow_decodeSnd {w : StimulusWord} (hk : fieldKind w = 4) : mapRow w = rowOf (decodeSnd w) := by
  unfold decodeSnd
  split
  all_goals
    next hrd hwr =>
    cases hio : fieldIo w <;> exact mapRow_of_control hk hio hwr hrd (by decide)

theorem rowsAgreeing_of_kind {w : StimulusWord} {k : BitVec 4} (hk : fieldKind w = k) :
    rowsAgreeing 0xF0000000#64 w = rowsAgreeing 0xF0000000#64 (packWord 0 k false false false 0 0) :=
  rowsAgreeing_congr (by rw [and_kind, and_kind, fieldKind_packWord, hk])

/-- R60, R62: a command has the one row of its kind, which looks at every bit. -/
theorem mapRow_decodeExact {w x : StimulusWord} {i : Instr} {k : BitVec 4} (hk : fieldKind w = k)
    (hx : mapRow x = some i.row)
    (hrows : ∀ r ∈ rowsAgreeing 0xF0000000#64 (packWord 0 k false false false 0 0),
      r.mask = BitVec.allOnes 64 ∧ r.pattern = x) : mapRow w = rowOf (decodeExact w x i) := by
  unfold decodeExact
  split
  case isTrue h => rw [h, hx, rowOf]
  case isFalse h =>
    refine mapRow_eq_none (c := 0xF0000000#64) fun r hr => ?_
    obtain ⟨hmask, hpattern⟩ := hrows r (rowsAgreeing_of_kind hk ▸ hr)
    rwa [hmask, hpattern, BitVec.and_allOnes]

/-- R61: the rows of `SETIN` are those of the five latches, in order. -/
theorem mapRow_setinWord (sel : BitVec 3) :
    mapRow (setinWord sel 0) = if sel.toNat < 5 then some (34 + sel.toNat) else none := by
  revert sel
  decide

theorem mapRow_of_not_hasSetinBits {w : StimulusWord} (hk : fieldKind w = 2) (h : ¬ hasSetinBits w) :
    mapRow w = mapRow (setinWord (fieldSel w) 0) := by
  have hrows : ∀ sel : BitVec 3, ∀ r ∈ rowsAgreeing 0xFFFFFFFFFF00FFFF#64 (setinWord sel 0),
      0xFFFFFFFFFF00FFFF#64 &&& r.mask = r.mask := by decide
  have hsetin : w &&& 0xFFFFFFFFFF00FFFF#64 = setinWord (fieldSel w) 0 &&& 0xFFFFFFFFFF00FFFF#64 := by
    calc w &&& 0xFFFFFFFFFF00FFFF#64 = setinWord (fieldSel w) (fieldD w) &&& 0xFFFFFFFFFF00FFFF#64 :=
          congrArg (· &&& 0xFFFFFFFFFF00FFFF#64) (eq_setinWord_of_not_hasSetinBits hk h)
      _ = setinWord (fieldSel w) 0 &&& 0xFFFFFFFFFF00FFFF#64 := by
        rw [Laws.EncodedInRow.setin_masked, Laws.EncodedInRow.setin_masked]
  exact mapRow_congr hsetin (hrows (fieldSel w))

theorem mapRow_decodeSetin {w : StimulusWord} (hk : fieldKind w = 2) : mapRow w = rowOf (decodeSetin w) := by
  unfold decodeSetin
  split
  case isTrue h =>
    rw [mapRow_of_not_hasSetinBits hk (mt (hasSetinBits_iff w).mp (not_not_intro h)), mapRow_setinWord]
    generalize (fieldSel w).toNat = n
    match n with
    | 0 | 1 | 2 | 3 | 4 => rfl
    | n + 5 => simp [rowOf]
  case isFalse h =>
    have hrows : ∀ r ∈ rowsAgreeing 0xF0000000#64 (packWord 0 2 false false false 0 0),
        r.mask &&& 0xFFFFFFFF0F00FFF8#64 = 0xFFFFFFFF0F00FFF8#64 ∧ r.pattern &&& 0xFFFFFFFF0F00FFF8#64 = 0 := by decide
    refine mapRow_eq_none (c := 0xF0000000#64) fun r hr hfit => (hasSetinBits_iff w).mpr h ?_
    obtain ⟨hmask, hpattern⟩ := hrows r (rowsAgreeing_of_kind hk ▸ hr)
    rw [← hmask, ← BitVec.and_assoc, hfit, hpattern]

theorem mapRow_of_five_le_kind {w : StimulusWord} (hk : 5 ≤ (fieldKind w).toNat) : mapRow w = none := by
  have hrows : ∀ k : BitVec 4, 5 ≤ k.toNat →
      rowsAgreeing 0xF0000000#64 (packWord 0 k false false false 0 0) = [] := by decide
  refine mapRow_eq_none (c := 0xF0000000#64) fun r hr => ?_
  rw [rowsAgreeing_of_kind rfl, hrows _ hk] at hr
  exact nomatch hr

theorem mapRow_eq_rowOf_decode (w : StimulusWord) : mapRow w = rowOf (decode w) := by
  rcases fieldKind_cases w with hk | hk | hk | hk | hk | hk
  · rw [decode_of_kind_zero hk, mapRow_decodeTxn hk, rowOf]
  · rw [decode_of_kind_one hk]
    exact mapRow_decodeExact hk (by decide) (by decide)
  · rw [decode_of_kind_two hk, mapRow_decodeSetin hk]
  · rw [decode_of_kind_three hk]
    exact mapRow_decodeExact hk (by decide) (by decide)
  · rw [decode_of_kind_four hk, mapRow_decodeSnd hk]
  · rw [decode_of_five_le_kind hk, mapRow_of_five_le_kind hk, rowOf]

/-- Settles O4: `mapRow_eq_rowOf_decode` compares the map and the decoder kind by kind. -/
theorem decoderAgreesWithOpcodeMap : Obligations.DecoderAgreesWithOpcodeMap := mapRow_eq_rowOf_decode

end Sys2Proof.Machine

/-! ## Proofs: the bus dispatcher of the main board (O13, O20, O21, O22, O26, O28, O29, O30, O31, O32, O34, O35, O40) -/

namespace Sys2Proof.Machine

/-! ### Every transaction (R76) -/

theorem accOf_of_txnCycles_some {i : Instr} {cyc : Cycles} (h : txnCycles i = some cyc) (s : State) :
    accOf i s = accAfter s cyc := by
  simp [accOf, h]

/-- R119: no handler of a `TXN` writes the accumulator that the timing step leaves. -/
theorem acc_of_exec_txn {i : Instr} {cyc : Cycles} {s t : State} (h : txnCycles i = some cyc) (hexec : exec i s = .next t) :
    t.acc = accAfter s cyc := by
  have hreset : i ≠ .reset := by rintro rfl; exact nomatch h
  obtain ⟨r, rfl⟩ := exec_eq_next hexec
  exact (effectOf_acc hreset _).trans (accOf_of_txnCycles_some h s)

/-- Settles O13: the skeleton common to every `TXN` answers the request of its timing step. -/
theorem everyTransactionAdvancesTheAccumulator : Obligations.EveryTransactionAdvancesTheAccumulator := by
  intro i cyc s h
  obtain ⟨io, wr, rd, a, d, dispatch, -, hexec, -⟩ := exec_of_txnCycles h
  refine ⟨_, _, hexec s, acc_of_exec_txn h (hexec s), rfl, rfl, ?_⟩
  rw [advance_eq, intOf]

/-! ### The palette region (R81-R83) -/

/-- R66: the RAM byte of a palette address. -/
theorem ramIdx_eq_sub_of_isPalette {a : Addr} (h : a.isPalette = true) : ramIdx a.toNat = a.toNat - 0x8000 := by
  rw [Addr.isPalette_iff] at h
  exact ramIdx_of_inRange (by omega) (by omega)

theorem decode_readWord_of_isPalette {a : Addr} (h : a.isPalette = true) (cyc : Cycles) (d : Byte) :
    decode (readWord cyc a d) = .ok (.palRd cyc a d) := by
  rw [decode_readWord, decodeMemRead_of_isPalette cyc d h]

theorem decode_writeWord_of_isPalette {a : Addr} (h : a.isPalette = true) (cyc : Cycles) (d : Byte) :
    decode (writeWord cyc a d) = .ok (if a.getLsbD 0 then .palWrO cyc a d else .palWrE cyc a d) := by
  rw [decode_writeWord, decodeMemWrite_of_isPalette cyc d h]

/-- R81: what `PAL.RD` does. -/
theorem exec_palRd {a : Addr} (h : a.isPalette = true) (cyc : Cycles) (d : Byte) (s : State) :
    exec (.palRd cyc a d) s = .next { s with
      acc := accAfter s cyc
      response := readReply s cyc false a (ramAt s (a.toNat - 0x8000)) } := by
  rw [← ramIdx_eq_sub_of_isPalette h]
  exact congrArg Host.Outcome.next (busRead_eq cyc false a _ s)

/-- R82, R83: what the palette write of the address's parity does. -/
theorem exec_palWr {a : Addr} (h : a.isPalette = true) (cyc : Cycles) (d : Byte) (s : State) :
    ∃ t, exec (if a.getLsbD 0 then .palWrO cyc a d else .palWrE cyc a d) s = .next t
      ∧ t = { s with ram := t.ram, pal := t.pal, acc := accAfter s cyc, response := writeReply s cyc false a d }
      ∧ (∀ j, ramAt t j = if j = a.toNat - 0x8000 then d else ramAt s j)
      ∧ ∀ j, palAt t j = if j = (a.toNat - 0x9C00) / 2 then palEnc (palAt s j) (a.getLsbD 0) d else palAt s j := by
  refine ⟨(palStore (a.getLsbD 0) a d (s.setAcc (accAfter s cyc))).setResponse (writeReply s cyc false a d), ?_, rfl,
    fun j => ?_, palAt_palStore (a.getLsbD 0) a d _⟩
  · rw [← busWrite_eq]
    cases a.getLsbD 0 <;> rfl
  · rw [ramAt_setResponse, ramAt_palStore, ramIdx_eq_sub_of_isPalette h, ramAt_setAcc]

/-- Settles O20: a palette write of either parity stores the byte that `PAL.RD` answers. -/
theorem paletteReadReturnsTheRamByte : Obligations.PaletteReadReturnsTheRamByte := by
  intro cyc a d s hpal
  refine ⟨decode_readWord_of_isPalette hpal cyc d, exec_palRd hpal cyc d s, rfl, fun c' b => ?_⟩
  obtain ⟨t, hexec, -, hram, -⟩ := exec_palWr hpal c' b s
  exact ⟨t, hexec, by rw [exec_palRd hpal, hram, if_pos rfl]⟩

/-- Settles O21: at an even address the palette write is `PAL.WR.E`, and `palEnc` keeps blue. -/
theorem evenPaletteWriteSetsGreenAndRed : Obligations.EvenPaletteWriteSetsGreenAndRed := by
  intro cyc a d s hpal heven
  have hdecode := decode_writeWord_of_isPalette hpal cyc d
  have heffect := exec_palWr hpal cyc d s
  rw [heven] at hdecode heffect
  exact ⟨hdecode, heffect⟩

/-- Settles O22: at an odd address the palette write is `PAL.WR.O`, and `palEnc` keeps green and red. -/
theorem oddPaletteWriteSetsBlue : Obligations.OddPaletteWriteSetsBlue := by
  intro cyc a d s hpal hodd
  have hdecode := decode_writeWord_of_isPalette hpal cyc d
  have heffect := exec_palWr hpal cyc d s
  rw [hodd] at hdecode heffect
  exact ⟨hdecode, heffect⟩

/-! ### `PALSET` (R74) -/

/-- R113: the even byte alone decides green and red. -/
theorem extractLsb'_palEnc_even (c : Color) (e : Byte) :
    (palEnc c false e).extractLsb' 0 16 = rep4 (hiNibble e) ++ rep4 (loNibble e) := by
  have happend : palEnc c false e = (0xFF#8 ++ c.extractLsb' 16 8) ++ (rep4 (hiNibble e) ++ rep4 (loNibble e)) :=
    BitVec.append_assoc
  rw [happend]
  exact BitVec.extractLsb'_append_eq_right

/-- R113: an even and then an odd byte replace the whole entry. -/
theorem palEnc_odd_palEnc_even (c : Color) (e o : Byte) : palEnc (palEnc c false e) true o = pairColor e o := by
  calc palEnc (palEnc c false e) true o = 0xFF#8 ++ rep4 (loNibble o) ++ (palEnc c false e).extractLsb' 0 16 := rfl
    _ = pairColor e o := by rw [extractLsb'_palEnc_even, pairColor_eq_append]

/-- R10, R74: the two bytes of `PALSET` carry the three nibbles of `bgr`. -/
theorem pairColor_palset (bgr : BitVec 12) :
    pairColor (bgr.extractLsb' 0 8) ((bgr.extractLsb' 8 4).setWidth 8) =
      0xFF#8 ++ rep4 (bgr.extractLsb' 8 4) ++ rep4 (bgr.extractLsb' 4 4) ++ rep4 (bgr.extractLsb' 0 4) := by
  have hblue : loNibble ((bgr.extractLsb' 8 4).setWidth 8) = bgr.extractLsb' 8 4 := by
    rw [loNibble, ← BitVec.setWidth_eq_extractLsb' (by decide), BitVec.setWidth_setWidth_of_le _ (by decide),
      BitVec.setWidth_eq]
  have hgreen : hiNibble (bgr.extractLsb' 0 8) = bgr.extractLsb' 4 4 := by
    simp [hiNibble]
  have hred : loNibble (bgr.extractLsb' 0 8) = bgr.extractLsb' 0 4 := by
    simp [loNibble]
  rw [pairColor, hblue, hgreen, hred]

theorem runWords_pair {v w : StimulusWord} {s t u : State} (hv : handle v s = .next t) (hw : handle w t = .next u) :
    runWords [v, w] s = .next u := by
  simp [runWords, hv, hw]

/-- Settles O26: the write column of the map, at the even and then at the odd address of the entry. -/
theorem palsetSetsOneEntry : Obligations.PalsetSetsOneEntry := by
  intro i bgr s
  have hi := i.isLt
  obtain ⟨t, ht, -, -, -, htpal⟩ :=
    everyAddressWritesByTheMap 4 (BitVec.ofNat 16 (0x9C00 + 2 * i.val)) (bgr.extractLsb' 0 8) s
  obtain ⟨u, hu, -, -, -, hupal⟩ :=
    everyAddressWritesByTheMap 4 (BitVec.ofNat 16 (0x9C00 + 2 * i.val + 1)) ((bgr.extractLsb' 8 4).setWidth 8) t
  have heven : (BitVec.ofNat 16 (0x9C00 + 2 * i.val)).toNat = 0x9C00 + 2 * i.val := Nat.mod_eq_of_lt (by omega)
  have hodd : (BitVec.ofNat 16 (0x9C00 + 2 * i.val + 1)).toNat = 0x9C00 + 2 * i.val + 1 := Nat.mod_eq_of_lt (by omega)
  refine ⟨u, runWords_pair ht hu, fun j => ?_⟩
  rw [hupal, htpal, heven, hodd, decide_eq_false (by omega), decide_eq_true (by omega)]
  by_cases hj : j = i.val
  · rw [if_pos (by omega), if_pos (by omega), if_pos hj, palEnc_odd_palEnc_even, pairColor_palset]
  · rw [if_neg (by omega), if_neg (by omega), if_neg hj]

/-! ### The ports and the sound latch (R84-R97), idle (R78) -/

theorem undrivenRead_eq (cyc : Cycles) (io : Bool) (a : Addr) (d : Byte) (s : State) : undrivenRead cyc io a d s =
    { s with acc := accAfter s cyc, response := readReply s cyc io a d } :=
  busRead_eq cyc io a _ s

/-- Settles O28: the map decodes each port at its address, and the timing step changes no latch. -/
theorem inputPortReadsAnswerTheLatch : Obligations.InputPortReadsAnswerTheLatch := by
  refine ⟨fun cyc d => ?_, fun cyc d s => ?_⟩
  · exact ⟨decode_readWord cyc 0xB000 d, decode_readWord cyc 0xB001 d, decode_readWord cyc 0xB002 d,
      decode_readWord cyc 0xB004 d, decode_readWord cyc 0xB005 d⟩
  · refine ⟨?_, ?_, ?_, ?_, ?_⟩
    all_goals exact congrArg Host.Outcome.next (busRead_eq cyc false _ _ s)

/-- Settles O30: the map decodes each port at its address, where it accepts a write without effect. -/
theorem noopPortWritesAdvanceOnly : Obligations.NoopPortWritesAdvanceOnly := by
  refine ⟨fun cyc d => ?_, fun cyc d s => ?_⟩
  · exact ⟨decode_writeWord cyc 0xB001 d, decode_writeWord cyc 0xB002 d, decode_writeWord cyc 0xB003 d,
      decode_writeWord cyc 0xB004 d, decode_writeWord cyc 0xB005 d, decode_writeWord cyc 0xB800 d⟩
  · refine ⟨?_, ?_, ?_, ?_, ?_, ?_⟩
    all_goals exact congrArg Host.Outcome.next (noopWrite_eq cyc false _ d s)

/-- Settles O31: the reserved port, the sound latch and the I/O space share the undriven read. -/
theorem undrivenReadsAnswerTheDataLine : Obligations.UndrivenReadsAnswerTheDataLine := by
  intro cyc a d s
  refine ⟨?_, ?_, ?_⟩
  all_goals exact congrArg Host.Outcome.next (undrivenRead_eq cyc _ _ d s)

/-- Settles O29: the next `TXN` is one in the state that holds the new mask. -/
theorem maskWriteTakesEffectNext : Obligations.MaskWriteTakesEffectNext := by
  intro cyc d s
  refine ⟨decode_writeWord cyc 0xB000 d, _, congrArg Host.Outcome.next (busWrite_eq cyc false 0xB000 d _ s), rfl,
    fun i cyc' h => ?_⟩
  obtain ⟨u, r, hexec, -, hresponse, -, hint⟩ := everyTransactionAdvancesTheAccumulator i cyc' _ h
  exact ⟨u, r, hexec, hresponse, hint⟩

theorem accAfter_zero {s : State} (h : s.acc < s.cfg.period) : accAfter s 0 = s.acc :=
  Nat.mod_eq_of_lt h

theorem intOf_zero {s : State} (h : s.acc < s.cfg.period) : intOf s 0 = false := by
  simp [intOf, h]

/-- Settles O40: an idle cycle group has no handler. -/
theorem idleAdvancesOnly : Obligations.IdleAdvancesOnly := by
  intro cyc io a d s
  exact ⟨congrArg Host.Outcome.next (busIdle_eq cyc io a d s), fun h => ⟨accAfter_zero h, intOf_zero h⟩⟩

/-! ### The resolver (R98, R99, R102, R103) -/

/-- Settles O32: both ranges lie in the resolver's, which answers the byte of the image. -/
theorem romReadsAnswerTheImage : Obligations.RomReadsAnswerTheImage := by
  intro cyc a d s
  refine ⟨fun h => ?_, fun hlo hhi => ?_⟩
  · have hlow : a.isRomLow = true := Addr.isRomLow_iff.mpr h
    rw [decode_readWord, decodeMemRead_of_isRomLow cyc d hlow, ← memRead_romLow s hlow]
    exact ⟨rfl, congrArg Host.Outcome.next (resolverRead_eq cyc a s)⟩
  · have hhigh : a.isRomHigh = true := Addr.isRomHigh_iff.mpr ⟨hlo, hhi⟩
    rw [decode_readWord, decodeMemRead_of_isRomHigh cyc d hhigh, ← memRead_romHigh s hhigh]
    exact ⟨rfl, congrArg Host.Outcome.next (resolverRead_eq cyc a s)⟩

theorem range_of_isPlainRam {a : Addr} (h : a.isPlainRam = true) : 0x8000 ≤ a.toNat ∧ a.toNat ≤ 0x9FFF := by
  rw [Addr.isPlainRam_iff] at h
  omega

/-- Settles O34: both ranges lie in RAM. -/
theorem plainRamReadReturnsTheByte : Obligations.PlainRamReadReturnsTheByte := by
  intro cyc a d s h
  obtain ⟨hlo, hhi⟩ := range_of_isPlainRam h
  rw [decode_readWord, decodeMemRead_of_isPlainRam cyc d h, ← memRead_ram s hlo hhi]
  exact ⟨rfl, congrArg Host.Outcome.next (resolverRead_eq cyc a s)⟩

/-- Settles O35: both ranges lie in RAM, where the resolver stores the byte. -/
theorem plainRamWriteStoresOneByte : Obligations.PlainRamWriteStoresOneByte := by
  intro cyc a d s h
  refine ⟨?_, _, congrArg Host.Outcome.next (resolverWrite_eq cyc a d s), rfl, fun j => ?_⟩
  · rw [decode_writeWord, decodeMemWrite_of_isPlainRam cyc d h]
  · exact (ramAt_memWrite _ a d j).trans (if_congr (and_iff_right (range_of_isPlainRam h)) rfl rfl)

end Sys2Proof.Machine

/-! ## Proofs: the sound board and its independence (O42, O43) -/

namespace Sys2Proof.Machine

/-- Settles O42: `sndTxn` has no timing step and no effect. -/
theorem soundBoardIsAStub : Obligations.SoundBoardIsAStub :=
  fun _ _ _ _ _ => ⟨rfl, rfl, rfl⟩

/-- R43: the resolver neither reads nor writes the sound RAM. -/
theorem memWrite_with_sndRam (s : State) (a : Addr) (v : Byte) (m : List Host.Cell) :
    memWrite { s with sndRam := m } a v = { memWrite s a v with sndRam := m } := by
  unfold memWrite
  split <;> rfl

theorem resolverWrite_with_sndRam (cyc : Cycles) (a : Addr) (d : Byte) (s : State) (m : List Host.Cell) :
    resolverWrite cyc a d { s with sndRam := m } = { resolverWrite cyc a d s with sndRam := m } := by
  unfold resolverWrite
  rw [busWrite_eq, busWrite_eq]
  exact congrArg (·.setResponse (writeReply s cyc false a d)) (memWrite_with_sndRam (s.setAcc (accAfter s cyc)) a d m)

/-- R112: a stimulus other than `RESET` that completes does so with any contents of the sound RAM, which it keeps. -/
theorem exec_with_sndRam {i : Instr} {s t : State} (hreset : i ≠ .reset) (h : exec i s = .next t) (m : List Host.Cell) :
    exec i { s with sndRam := m } = .next { t with sndRam := m } := by
  cases i
  case reset => exact absurd rfl hreset
  case rsvdRdwr => exact nomatch h
  all_goals cases h
  case romlWr cyc a d | romhWr cyc a d | ramWr cyc a d | unmapWr cyc a d =>
    exact congrArg Host.Outcome.next (resolverWrite_with_sndRam cyc a d s m)
  -- The other meanings only read named fields beside the sound RAM and update them, `RENDER` by its two passes.
  all_goals rfl

/-- Settles O43: a `SNDTXN` is `sndTxn`, and every stimulus but `RESET` commutes with replacing the sound RAM. -/
theorem boardsAreIndependent : Obligations.BoardsAreIndependent := by
  refine ⟨fun i s t hsnd h => ?_, fun i s t m hreset h => exec_with_sndRam hreset h m⟩
  obtain ⟨-, _, io, wr, rd, a, d, -, hexec⟩ := exec_of_isSnd hsnd
  cases (hexec s).symm.trans h
  rfl

end Sys2Proof.Machine

/-! ## Proofs: the palette encoder (O23, O24, O25) -/

namespace Sys2Proof.Machine

/-! ### What one write leaves: each parity keeps the channels of the other -/

theorem palEnc_odd_eq_append (c : Color) (b : Byte) :
    palEnc c true b = 0xFF#8 ++ rep4 (loNibble b) ++ c.extractLsb' 0 16 :=
  rfl

theorem palEnc_even_eq_append (c : Color) (b : Byte) :
    palEnc c false b = (0xFF#8 ++ c.extractLsb' 16 8) ++ (rep4 (hiNibble b) ++ rep4 (loNibble b)) :=
  BitVec.append_assoc

/-- R113: the odd case keeps green and red. -/
theorem extractLsb'_palEnc_odd_greenRed (c : Color) (b : Byte) :
    (palEnc c true b).extractLsb' 0 16 = c.extractLsb' 0 16 :=
  BitVec.extractLsb'_append_eq_right

/-- R113: the odd byte alone decides blue. -/
theorem extractLsb'_palEnc_odd_blue (c : Color) (b : Byte) : (palEnc c true b).extractLsb' 16 8 = rep4 (loNibble b) := by
  rw [palEnc_odd_eq_append, BitVec.extractLsb'_append_eq_of_le (by decide)]
  exact BitVec.extractLsb'_append_eq_right

/-- R113: the even case keeps blue. -/
theorem extractLsb'_palEnc_even_blue (c : Color) (b : Byte) :
    (palEnc c false b).extractLsb' 16 8 = c.extractLsb' 16 8 := by
  rw [palEnc_even_eq_append, BitVec.extractLsb'_append_eq_of_le (by decide)]
  exact BitVec.extractLsb'_append_eq_right

/-- R113: an encoded colour is opaque. -/
theorem alpha_palEnc (c : Color) (odd : Bool) (b : Byte) : alpha (palEnc c odd b) = 0xFF#8 := by
  cases odd
  case false =>
    rw [alpha, palEnc_even_eq_append, BitVec.extractLsb'_append_eq_of_le (by decide)]
    exact BitVec.extractLsb'_append_eq_left
  case true =>
    rw [alpha, palEnc_odd_eq_append, BitVec.extractLsb'_append_eq_of_le (by decide)]
    exact BitVec.extractLsb'_append_eq_left

theorem loNibble_and_lowMask (b : Byte) : loNibble (b &&& 0x0F#8) = loNibble b := by
  rw [loNibble, BitVec.extractLsb'_and]
  exact BitVec.and_allOnes

/-- Settles O24: the odd case reads its byte through `loNibble` only. -/
theorem paletteEncoderIsOpaque : Obligations.PaletteEncoderIsOpaque := by
  intro cur odd b
  refine ⟨alpha_palEnc cur odd b, ?_⟩
  rw [palEnc_odd_eq_append, palEnc_odd_eq_append, loNibble_and_lowMask]

/-! ### Two writes -/

/-- R113: an odd and then an even byte replace the whole entry. -/
theorem palEnc_even_palEnc_odd (c : Color) (e o : Byte) : palEnc (palEnc c true o) false e = pairColor e o := by
  rw [palEnc, if_neg Bool.false_ne_true, extractLsb'_palEnc_odd_blue, pairColor]

/-- R113: of two bytes of one parity the later one counts. -/
theorem palEnc_palEnc_same (c : Color) (odd : Bool) (b1 b2 : Byte) :
    palEnc (palEnc c odd b1) odd b2 = palEnc c odd b2 := by
  cases odd
  case false =>
    rw [palEnc_even_eq_append, extractLsb'_palEnc_even_blue, ← palEnc_even_eq_append]
  case true =>
    rw [palEnc_odd_eq_append, extractLsb'_palEnc_odd_greenRed, ← palEnc_odd_eq_append]

/-- Settles O25: in either order the pair of bytes decides the entry, which is then `pairColor e o`. -/
theorem paletteEncoderOrderIndependent : Obligations.PaletteEncoderOrderIndependent := by
  intro c e o
  have hevenOdd := palEnc_odd_palEnc_even c e o
  exact ⟨hevenOdd.trans (palEnc_even_palEnc_odd c e o).symm, hevenOdd,
    fun p b1 b2 => ⟨palEnc_palEnc_same c p b1 b1, palEnc_palEnc_same c p b1 b2⟩⟩

/-! ### The arithmetic form -/

/-- A field of a word, in its place, is the word under the field's mask. -/
theorem shiftLeft_setWidth_extractLsb' {w : Nat} (x : BitVec w) (start len : Nat) :
    (x.extractLsb' start len).setWidth w <<< start = x &&& ((BitVec.allOnes len).setWidth w <<< start) := by
  ext i hi
  by_cases hstart : i < start
  · simp [hstart]
  · simp [hstart, Nat.add_sub_cancel' (Nat.le_of_not_lt hstart), hi, Bool.and_comm]

/-- R10: replicating a nibble multiplies it by `0x11`. -/
theorem setWidth_rep4 (n : BitVec 4) : (rep4 n).setWidth 32 = n.setWidth 32 * 0x11#32 := by
  have hn := n.isLt
  have hrep : (rep4 n).toNat = n.toNat <<< 4 + n.toNat := by
    rw [rep4, BitVec.toNat_append, Nat.shiftLeft_add_eq_or_of_lt hn]
  apply BitVec.eq_of_toNat_eq
  rw [BitVec.toNat_setWidth, BitVec.toNat_mul, BitVec.toNat_setWidth, BitVec.toNat_ofNat, hrep, Nat.shiftLeft_eq]
  omega

/-- R113: a replicated low nibble as arithmetic. -/
theorem setWidth_rep4_loNibble (b : Byte) :
    (rep4 (loNibble b)).setWidth 32 = (b &&& 0x0F#8).setWidth 32 * 0x11#32 := by
  have hmask : (loNibble b).setWidth 8 = b &&& 0x0F#8 :=
    (BitVec.shiftLeft_zero _).symm.trans (shiftLeft_setWidth_extractLsb' b 0 4)
  rw [setWidth_rep4, ← hmask, BitVec.setWidth_setWidth (by decide)]

/-- R113: a replicated high nibble as arithmetic. -/
theorem setWidth_rep4_hiNibble (b : Byte) :
    (rep4 (hiNibble b)).setWidth 32 = (b >>> (4 : Nat)).setWidth 32 * 0x11#32 := by
  have hnibble : (hiNibble b).setWidth 32 = (b >>> (4 : Nat)).setWidth 32 := by
    apply BitVec.eq_of_toNat_eq
    rw [hiNibble, BitVec.toNat_setWidth, BitVec.toNat_setWidth, BitVec.extractLsb'_toNat, BitVec.toNat_ushiftRight,
      Nat.shiftRight_eq_div_pow]
    omega
  rw [setWidth_rep4, hnibble]

/-- R113: blue, in its place. -/
theorem shiftLeft_setWidth_blue (cur : Color) : (cur.extractLsb' 16 8).setWidth 32 <<< 16 = cur &&& 0x00FF0000#32 :=
  shiftLeft_setWidth_extractLsb' cur 16 8

/-- R113: green and red, in their place. -/
theorem setWidth_greenRed (cur : Color) : (cur.extractLsb' 0 16).setWidth 32 = cur &&& 0x0000FFFF#32 :=
  (BitVec.shiftLeft_zero _).symm.trans (shiftLeft_setWidth_extractLsb' cur 0 16)

/-- Settles O23: a concatenation is the `or` of its shifted parts. -/
theorem paletteEncoderArithmetic : Obligations.PaletteEncoderArithmetic := by
  intro cur b
  constructor
  · calc palEnc cur true b
      _ = (0xFF#8 ++ rep4 (loNibble b) ++ cur.extractLsb' 0 16).setWidth 32 := (BitVec.setWidth_eq _).symm
      _ = 0xFF000000#32 ||| (rep4 (loNibble b)).setWidth 32 <<< 16 ||| (cur.extractLsb' 0 16).setWidth 32 :=
        BitVec.setWidth_append_append_eq_shiftLeft_setWidth_or
      _ = _ := by rw [setWidth_rep4_loNibble, setWidth_greenRed]
  · calc palEnc cur false b
      _ = (0xFF#8 ++ cur.extractLsb' 16 8 ++ rep4 (hiNibble b) ++ rep4 (loNibble b)).setWidth 32 :=
        (BitVec.setWidth_eq _).symm
      _ = 0xFF000000#32 ||| (cur.extractLsb' 16 8).setWidth 32 <<< 16 ||| (rep4 (hiNibble b)).setWidth 32 <<< 8
          ||| (rep4 (loNibble b)).setWidth 32 :=
        BitVec.setWidth_append_append_append_eq_shiftLeft_setWidth_or
      _ = _ := by rw [shiftLeft_setWidth_blue, setWidth_rep4_hiNibble, setWidth_rep4_loNibble]

end Sys2Proof.Machine

/-! ## Proofs: the timing step and its interrupt request (O14, O16, O17, O18) -/

namespace Sys2Proof.Machine

/-! ### One timing step (R119) -/

/-- R119: the timing step requests on a wrap while the mask is nonzero. -/
theorem interruptRequest_wraps_iff (period t : Nat) (mask : Byte) :
    interruptRequest (wraps period t) mask = true ↔ period ≤ t ∧ mask ≠ 0x00 := by
  rw [interruptRequest, wraps, Bool.and_eq_true, decide_eq_true_iff, bne_iff_ne]

/-- R119: the request is the step's own wrap under the mask it finds. -/
theorem advance_request (c : Nat) (s : State) :
    (advance c s).1 = decide (s.cfg.period ≤ s.acc + c ∧ s.imask ≠ 0x00) := by
  rw [Bool.eq_iff_iff, decide_eq_true_iff]
  exact interruptRequest_wraps_iff s.cfg.period (s.acc + c) s.imask

/-- Settles O14: beside the request, the accumulator is all the timing step writes. -/
theorem advanceResult : Obligations.AdvanceResult :=
  fun c s => ⟨advance_request c s, rfl⟩

/-- Settles O16: the later step's request reads the accumulator, which holds no trace of the masked wrap. -/
theorem zeroMaskSuppressesTheRequest : Obligations.ZeroMaskSuppressesTheRequest := by
  intro c s hmask
  refine ⟨?_, advance_acc c s, fun m c' => advance_request c' ((advance c s).2.setImask m)⟩
  rw [advance_request]
  exact decide_eq_false fun hrequest => hrequest.2 hmask

/-- R119: a whole period leaves an accumulator in range where it was. -/
theorem advance_period_state {s : State} (hacc : s.acc < s.cfg.period) : (advance s.cfg.period s).2 = s := by
  have hback : (s.acc + s.cfg.period) % s.cfg.period = s.acc := by rw [Nat.add_mod_right, Nat.mod_eq_of_lt hacc]
  exact congrArg s.setAcc hback

/-- Settles O17: a whole period always wraps, so that the mask alone decides the request. -/
theorem exactlyOnePeriodRequestsOnce : Obligations.ExactlyOnePeriodRequestsOnce := by
  intro s hacc
  refine ⟨advance_period_state hacc, ?_⟩
  rw [advance_request, decide_eq_true_iff]
  exact and_iff_right (Nat.le_add_left _ _)

/-! ### A run of timing steps (R125) -/

theorem advance_acc_lt {s : State} (hacc : s.acc < s.cfg.period) (c : Nat) : (advance c s).2.acc < s.cfg.period :=
  Nat.mod_lt _ (Nat.zero_lt_of_lt hacc)

/-- From an accumulator in range, a step below one period wraps as often as its sum holds the period. -/
theorem wrap_eq_div {acc c p : Nat} (hacc : acc < p) (hc : c < p) : (if p ≤ acc + c then 1 else 0) = (acc + c) / p := by
  rw [Nat.add_div (Nat.zero_lt_of_lt hacc), Nat.div_eq_of_lt hacc, Nat.div_eq_of_lt hc, Nat.mod_eq_of_lt hacc,
    Nat.mod_eq_of_lt hc, Nat.zero_add]

/-- A sum divides in two stages: the quotient of the first summand counts, and its remainder is carried on. -/
theorem div_add_mod_add_div {p : Nat} (hp : 0 < p) (x y : Nat) : x / p + (x % p + y) / p = (x + y) / p := by
  calc x / p + (x % p + y) / p
    _ = (x % p + y + p * (x / p)) / p := by rw [Nat.add_mul_div_left _ _ hp, Nat.add_comm]
    _ = (x + y) / p := by rw [Nat.add_right_comm, Nat.mod_add_div]

/-- R125: the wraps of a run depend on its sum alone. -/
theorem tally_wrapCount (cs : List Nat) {s : State} (hacc : s.acc < s.cfg.period) (hcs : ∀ c ∈ cs, c < s.cfg.period) :
    (tally cs s).wrapCount = (s.acc + cs.sum) / s.cfg.period := by
  induction cs generalizing s with
  | nil => exact (Nat.div_eq_of_lt hacc).symm
  | cons c cs ih =>
    obtain ⟨hc, hrest⟩ := List.forall_mem_cons.mp hcs
    have hwrap := wrap_eq_div hacc hc
    have htail : (tally cs (advance c s).2).wrapCount = ((s.acc + c) % s.cfg.period + cs.sum) / s.cfg.period :=
      ih (advance_acc_lt hacc c) hrest
    calc (tally (c :: cs) s).wrapCount
      _ = (if s.cfg.period ≤ s.acc + c then 1 else 0) + (tally cs (advance c s).2).wrapCount := rfl
      _ = (s.acc + c + cs.sum) / s.cfg.period := by
        rw [hwrap, htail, div_add_mod_add_div (Nat.zero_lt_of_lt hacc)]
      _ = (s.acc + (c :: cs).sum) / s.cfg.period := by rw [List.sum_cons, Nat.add_assoc]

/-- R119: the accumulator at the end of a run depends on the sum alone, for cycle counts of any size. -/
theorem tally_final_acc (cs : List Nat) {s : State} (hacc : s.acc < s.cfg.period) :
    (tally cs s).final.acc = (s.acc + cs.sum) % s.cfg.period := by
  induction cs generalizing s with
  | nil => exact (Nat.mod_eq_of_lt hacc).symm
  | cons c cs ih =>
    calc (tally (c :: cs) s).final.acc
      _ = ((s.acc + c) % s.cfg.period + cs.sum) % s.cfg.period := ih (advance_acc_lt hacc c)
      _ = (s.acc + (c :: cs).sum) % s.cfg.period := by rw [Nat.mod_add_mod, List.sum_cons, Nat.add_assoc]

/-- R119: under a nonzero mask, which no timing step writes, every wrap requests. -/
theorem tally_requestCount (cs : List Nat) {s : State} (hmask : s.imask ≠ 0x00) :
    (tally cs s).requestCount = (tally cs s).wrapCount := by
  induction cs generalizing s with
  | nil => rfl
  | cons c cs ih =>
    have hrequest : (advance c s).1 = decide (s.cfg.period ≤ s.acc + c) := by
      simp only [advance_request, hmask, ne_eq, not_false_eq_true, and_true]
    have htail : (tally cs (advance c s).2).requestCount = (tally cs (advance c s).2).wrapCount := ih hmask
    simp only [tally, hrequest, htail, decide_eq_true_iff]

/-- Settles O18: by induction on the run, each count carrying the remainder of the sum so far. -/
theorem longRunRate : Obligations.LongRunRate :=
  fun cs _ hacc hcs => ⟨tally_wrapCount cs hacc hcs, tally_final_acc cs hacc, tally_requestCount cs⟩

end Sys2Proof.Machine

/-! ## Proofs: the video pipeline (O49, O50, O51, O52, O53, O54, O56) -/

namespace Sys2Proof.Machine

/-! ### What `RENDER` answers (R127) -/

theorem exec_render (s : State) : exec .render s = .next ((renderFrame s).setResponse none) := rfl

theorem eq_of_exec_render {s t : State} (h : exec .render s = .next t) : t = (renderFrame s).setResponse none :=
  (Host.Outcome.next.inj h).symm

/-- Settles O49: both passes only give the framebuffer a value. -/
theorem renderWritesOnlyTheFrame : Obligations.RenderWritesOnlyTheFrame := fun s => ⟨_, exec_render s, rfl⟩

/-! ### The samples of a rendered frame in closed form (R138) -/

/-- R137: the foreground pass writes the samples whose pen in the closed form is not 0. -/
theorem lit_iff (s : State) (i : Nat) : Lit s i ↔ penOf s (i % 256) (i / 256) ≠ 0 := by
  rw [Lit, ← penAt_toNat]
  exact BitVec.toNat_ne_iff_ne.symm

theorem frameAt_of_penOf_eq_zero {s : State} {x y : Nat} (h : penOf s x y = 0) : frameAt s x y = s.cfg.bgFill := if_pos h

theorem frameAt_of_lit {s : State} {i : Nat} (h : Lit s i) : frameAt s (i % 256) (i / 256) = litColor s i := by
  rw [litColor, nibbleAt_toNat, penAt_toNat]
  exact if_neg ((lit_iff s i).mp h)

/-- R138: the foreground pass gives a lit sample its colour; every other keeps the fill of the background pass. -/
theorem sample_renderFrame (s : State) {i : Nat} (hi : i < 65536) :
    sample (renderFrame s) i = frameAt s (i % 256) (i / 256) := by
  have hs : sample (renderFrame s) i = readCell s.cfg.bgFill (fgPass s (bgPass s s.fb)) i := rfl
  obtain ⟨hlit, hclear⟩ := readCell_fgPass s (bgPass s s.fb) i hi
  by_cases h : Lit s i
  · rw [hs, hlit h, frameAt_of_lit h]
  · have hpen : penOf s (i % 256) (i / 256) = 0 := not_not.mp fun hne => h ((lit_iff s i).mpr hne)
    rw [hs, hclear h, readCell_bgPass s _ _ i hi, frameAt_of_penOf_eq_zero hpen]

theorem sample_of_exec_render {s t : State} (h : exec .render s = .next t) {i : Nat} (hi : i < 65536) :
    sample t i = frameAt s (i % 256) (i / 256) := by
  rw [eq_of_exec_render h]
  exact sample_renderFrame s hi

/-- R28, R138: the same by coordinates. -/
theorem sample_xy_of_exec_render {s t : State} (h : exec .render s = .next t) {x y : Nat} (hx : x < 256) (hy : y < 256) :
    sample t (y * 256 + x) = frameAt s x y := by
  obtain ⟨hdiv, hmod⟩ := sampleIdx_div_mod hx rfl
  rw [sampleIdx] at hdiv hmod
  rw [sample_of_exec_render h (by omega), hdiv, hmod]

/-- Settles O50: the loops of both passes give every sample its closed form. -/
theorem renderedFrameHasTheClosedForm : Obligations.RenderedFrameHasTheClosedForm :=
  fun s => ⟨_, exec_render s, rfl, fun _ hx _ hy => sample_xy_of_exec_render (exec_render s) hx hy⟩

/-! ### What a frame depends on (R139) -/

/-- Two configurations with the same character ROM and the same parameters of the closed form. -/
structure SameFrameParameters (c d : Config) : Prop where
  romChars : c.romChars = d.romChars
  nChars : c.nChars = d.nChars
  fgBankBit : c.fgBankBit = d.fgBankBit
  fgColorLo : c.fgColorLo = d.fgColorLo
  bgFill : c.bgFill = d.bgFill

/-- R138: a sample is determined by the parameters, the palette and the two bytes of its cell. -/
theorem frameAt_congr {s u : State} {x y : Nat} (hcfg : SameFrameParameters u.cfg s.cfg) (hpal : u.pal = s.pal)
    (hcode : codeByte u (x / 8) (y / 8) = codeByte s (x / 8) (y / 8))
    (hcolor : colorByte u (x / 8) (y / 8) = colorByte s (x / 8) (y / 8)) : frameAt u x y = frameAt s x y := by
  have htile : tileOf u (x / 8) (y / 8) = tileOf s (x / 8) (y / 8) := by
    rw [tileOf, tileOf, hcode, hcolor, hcfg.fgBankBit]
  have hnibble : nibbleOf u (x / 8) (y / 8) = nibbleOf s (x / 8) (y / 8) := by
    rw [nibbleOf, nibbleOf, hcolor, hcfg.fgColorLo]
  have hplane : ∀ tile row k, planeOf u tile row k = planeOf s tile row k := fun _ _ _ => by
    rw [planeOf, planeOf, hcfg.romChars, hcfg.nChars]
  have hpen : penOf u x y = penOf s x y := by simp only [penOf, htile, hplane]
  rw [frameAt, frameAt, hpen, hnibble, palAt, palAt, hpal, hcfg.bgFill]

theorem sample_eq_of_exec_render {s u t t' : State} (hs : exec .render s = .next t) (hu : exec .render u = .next t')
    (h : ∀ x < 256, ∀ y < 256, frameAt u x y = frameAt s x y) {i : Nat} (hi : i < 65536) : sample t' i = sample t i := by
  rw [sample_of_exec_render hu hi, sample_of_exec_render hs hi, h _ (by omega) _ (by omega)]

/-- `RENDER` writes nothing that its frame depends on. -/
theorem frameAt_of_exec_render {s t : State} (h : exec .render s = .next t) (x y : Nat) : frameAt t x y = frameAt s x y := by
  rw [eq_of_exec_render h]
  exact frameAt_congr ⟨rfl, rfl, rfl, rfl, rfl⟩ rfl rfl rfl

/-- Settles O51: equal inputs give equal closed forms, and the first `RENDER` leaves the inputs of the second as they were. -/
theorem renderIsDeterminedAndIdempotent : Obligations.RenderIsDeterminedAndIdempotent := by
  constructor
  · intro s u t t' lo hi bg sp tm nb ns nt hram hpal hcfg hs hu i hlt
    have hparams : SameFrameParameters u.cfg s.cfg := hcfg ▸ ⟨rfl, rfl, rfl, rfl, rfl⟩
    have hcode : ∀ cx cy, codeByte u cx cy = codeByte s cx cy := fun _ _ => by
      rw [codeByte, codeByte, ramAt, ramAt, hram, hcfg]
    have hcolor : ∀ cx cy, colorByte u cx cy = colorByte s cx cy := fun _ _ => by
      rw [colorByte, colorByte, ramAt, ramAt, hram, hcfg]
    exact sample_eq_of_exec_render hs hu (fun _ _ _ _ => frameAt_congr hparams hpal (hcode _ _) (hcolor _ _)) hlt
  · intro s t t' hs ht i hlt
    exact sample_eq_of_exec_render hs ht (fun x _ y _ => frameAt_of_exec_render hs x y) hlt

/-- Settles O52: a cell of the screen reads its bytes at an offset below 1024. -/
theorem frameDependsOnlyOnTheCellBytes : Obligations.FrameDependsOnlyOnTheCellBytes := by
  intro s u t t' hcfg hpal hbytes hs hu i hlt
  refine sample_eq_of_exec_render hs hu (fun x hx y hy => ?_) hlt
  obtain ⟨hcode, hcolor⟩ := hbytes (y / 8 * 32 + x / 8) (by omega)
  refine frameAt_congr (hcfg ▸ ⟨rfl, rfl, rfl, rfl, rfl⟩) hpal ?_ ?_
  · rw [codeByte, hcfg]
    exact hcode
  · rw [colorByte, hcfg]
    exact hcolor

/-! ### Transparent samples (R140, R141) -/

/-- R136: three zero plane bytes give pen 0. -/
theorem penOf_eq_zero {s : State} {x y : Nat} (h : ∀ k < 3, planeOf s (tileOf s (x / 8) (y / 8)) (y % 8) k = 0x00) :
    penOf s x y = 0 := by
  have hbit : ∀ b, bitOf 0x00 b = 0 := fun b => by simp [bitOf]
  simp only [penOf, h 0 (by decide), h 1 (by decide), h 2 (by decide), hbit]

/-- Settles O53: the pen of each sample of such a row is 0. -/
theorem zeroPlaneRowsAreTransparent : Obligations.ZeroPlaneRowsAreTransparent := by
  intro s t cx cy row hcx hcy hrow hplanes hexec col hcol
  have hx : (cx * 8 + col) / 8 = cx := by omega
  have hy : (cy * 8 + row) / 8 = cy := by omega
  have hr : (cy * 8 + row) % 8 = row := by omega
  have hpen : penOf s (cx * 8 + col) (cy * 8 + row) = 0 := penOf_eq_zero (by rwa [hx, hy, hr])
  rw [sample_xy_of_exec_render hexec (by omega) (by omega), frameAt_of_penOf_eq_zero hpen]

/-- Settles O54: every plane byte is a byte of the character ROM. -/
theorem baselineFrameIsTheFill : Obligations.BaselineFrameIsTheFill := by
  intro s t hrom hexec i hi
  rw [sample_of_exec_render hexec hi, frameAt_of_penOf_eq_zero (penOf_eq_zero fun _ _ => hrom _)]

/-! ### The background lookup (R129, R130) -/

theorem selPage_toNat (sel : Byte) : (selPage sel).toNat = sel.toNat % 8 := BitVec.extractLsb'_toNat 0 3 sel

theorem attrColorGroup_toNat (attr : Byte) : (attrColorGroup attr).toNat = attr.toNat % 16 :=
  BitVec.extractLsb'_toNat 0 4 attr

theorem attrVFlip_iff (attr : Byte) : attrVFlip attr = true ↔ 128 ≤ attr.toNat := by
  have hmsb : attrVFlip attr = attr.msb := (BitVec.msb_eq_getLsbD_last attr).symm
  rw [hmsb, BitVec.msb_eq_decide, decide_eq_true_iff]

/-- Settles O56: each bit field of a looked-up byte is a remainder or a comparison. -/
theorem backgroundLookup : Obligations.BackgroundLookup := by
  intro cfg sel cell
  simp only [bgLookup, selPage_toNat]
  exact ⟨rfl, attrColorGroup_toNat _, attrVFlip_iff _⟩

end Sys2Proof.Machine

/-! ## Proofs: the host operations (O12) -/

namespace Sys2Proof.Machine

/-- R147: `RESET` completes in every state. -/
theorem exec_reset (s : State) : exec .reset s = .next (resetFrom s) := rfl

/-! ### The memories after `RESET` (R33): no cell is listed, so that each reads as its default. -/

theorem palAt_resetFrom (s : State) (i : Nat) : palAt (resetFrom s) i = 0xFF000000 := readCell_nil palDefault i

theorem ramAt_resetFrom (s : State) (i : Nat) : ramAt (resetFrom s) i = 0x00 := readCell_nil ramDefault i

theorem sndRamAt_resetFrom (s : State) (i : Nat) : sndRamAt (resetFrom s) i = 0x00 := readCell_nil ramDefault i

/-- Settles O12: `resetFrom` clears the registers, copies the configuration and the queue, and lists no memory cell. -/
theorem resetInitialisesAllState : Obligations.ResetInitialisesAllState := by
  intro s
  refine ⟨resetFrom s, exec_reset s, rfl, rfl, rfl, rfl, rfl, rfl, rfl, ?pal, ?ram, ?sndRam, rfl, rfl, rfl, rfl⟩
  case pal => exact fun i _ => palAt_resetFrom s i
  case ram => exact fun i _ => ramAt_resetFrom s i
  case sndRam => exact fun i _ => sndRamAt_resetFrom s i

end Sys2Proof.Machine

/-! ## Proofs: the state at power-on (O11) -/

namespace Sys2Proof.Machine

/-- Settles O11: the registers are literals of `State.reset`, and its memories list no cell, so that each reads as its
default. -/
theorem stateAtPowerOn : Obligations.StateAtPowerOn := by
  refine ⟨rfl, rfl, rfl, rfl, rfl, rfl, rfl, ?pal, ?ram, ?sndRam, rfl⟩
  case pal => exact fun i _ => readCell_nil palDefault i
  case ram => exact fun i _ => readCell_nil ramDefault i
  case sndRam => exact fun i _ => readCell_nil ramDefault i

end Sys2Proof.Machine

/-! ## Proofs: the input bit `INT`, the worked words, the pseudo-stimuli, `RSVD.RDWR` and `SETIN` (O1, O5, O27, O41, O44) -/

namespace Sys2Proof.Machine

/-! ### Bit 27 is in no field (R57, R70) -/

theorem fieldKind_clearInt (w : StimulusWord) : fieldKind (w &&& 0xFFFFFFFFF7FFFFFF#64) = fieldKind w := by
  rw [and_clearInt, fieldKind_packWord]

theorem decodeTxn_clearInt (w : StimulusWord) : decodeTxn (w &&& 0xFFFFFFFFF7FFFFFF#64) = decodeTxn w := by
  simp [and_clearInt, decodeTxn]

theorem decodeSnd_clearInt (w : StimulusWord) : decodeSnd (w &&& 0xFFFFFFFFF7FFFFFF#64) = decodeSnd w := by
  simp [and_clearInt, decodeSnd]

/-- R70: a `TXN` or `SNDTXN` decodes as it does with its input bit cleared. -/
theorem decode_clearInt {w : StimulusWord} (hk : fieldKind w = 0 ∨ fieldKind w = 4) :
    decode (w &&& 0xFFFFFFFFF7FFFFFF#64) = decode w := by
  obtain hk | hk := hk
  · rw [decode_of_kind_zero hk, decode_of_kind_zero ((fieldKind_clearInt w).trans hk), decodeTxn_clearInt]
  · rw [decode_of_kind_four hk, decode_of_kind_four ((fieldKind_clearInt w).trans hk), decodeSnd_clearInt]

theorem setInt_clearInt (w : StimulusWord) :
    (w ||| 0x08000000#64) &&& 0xFFFFFFFFF7FFFFFF#64 = w &&& 0xFFFFFFFFF7FFFFFF#64 := by
  have hdisjoint : 0x08000000#64 &&& 0xFFFFFFFFF7FFFFFF#64 = 0#64 := by decide
  rw [BitVec.and_or_distrib_right, hdisjoint, BitVec.or_zero]

theorem handle_congr {v w : StimulusWord} (h : decode v = decode w) (s : State) : handle v s = handle w s := by
  rw [handle, h, handle]

/-- Settles O5: setting the bit keeps the kind, so that the word decodes as it does with the bit cleared; a handler sees only
what was decoded. -/
theorem interruptInputBitIsIgnored : Obligations.InterruptInputBitIsIgnored := by
  intro w s hk
  have hkind : fieldKind (w ||| 0x08000000#64) = fieldKind w := by
    rw [← fieldKind_clearInt, setInt_clearInt, fieldKind_clearInt]
  have hdecode : decode (w ||| 0x08000000#64) = decode (w &&& 0xFFFFFFFFF7FFFFFF#64) := by
    rw [← setInt_clearInt, decode_clearInt (hkind.symm ▸ hk)]
  exact ⟨hdecode, handle_congr hdecode s⟩

/-! ### Words of known stimuli (R74, R75) -/

/-- Settles O1: each word is the encoding of its stimulus. -/
theorem workedWordsDecode : Obligations.WorkedWordsDecode :=
  ⟨rfl, decodeOfEncodeIsIdentity (.palWrE 4 0x9C00 0x53) rfl,
    rfl, decodeOfEncodeIsIdentity (.joy1Rd 3 0x00) rfl,
    rfl, decodeOfEncodeIsIdentity (.idle 66666 false 0 0) rfl,
    rfl, decodeOfEncodeIsIdentity (.setinJoy1 0x21) rfl⟩

theorem runWords_singleton (w : StimulusWord) (s : State) : runWords [w] s = handle w s := by
  rw [runWords]
  cases handle w s <;> rfl

theorem runWords_encode {i : Instr} (hwf : i.wellFormed = true) (s : State) : runWords [encode i] s = exec i s := by
  rw [runWords_singleton, handle_of_decode_ok (decodeOfEncodeIsIdentity i hwf)]

/-- Settles O27: `EI`, `DI` and `WAIT` expand to the one word of their stimulus, and `FRAME` ends in the line of `RENDER`. -/
theorem pseudoStimuliExpand : Obligations.PseudoStimuliExpand := by
  refine ⟨fun s => ⟨?ei, ?di⟩, fun n s => ?wait, fun ts => ?frame⟩
  case ei => exact runWords_encode (i := .imaskWr 4 0x01) rfl s
  case di => exact runWords_encode (i := .imaskWr 4 0x00) rfl s
  case wait => exact runWords_encode (i := .idle n false 0 0) rfl s
  case frame => exact List.map_append

/-! ### The refused stimulus (R80) and the host's latches (R148-R153) -/

/-- Settles O41: the meaning of `RSVD.RDWR` reads neither its operands nor the state. -/
theorem readWithWriteIsRefused : Obligations.ReadWithWriteIsRefused := fun _ _ _ _ _ => rfl

/-- Settles O44: each `SETIN` is the named update of its latch, with the response cleared. -/
theorem setinReplacesOneLatch : Obligations.SetinReplacesOneLatch := fun _ _ => ⟨rfl, rfl, rfl, rfl, rfl⟩

end Sys2Proof.Machine
